-- ==== Sys2Proof/Word.lean ====
section
/-! DEFINITION. The word types of the SCFP core and the width function the spec uses. -/

namespace Sys2Proof

/-- A byte is 8 bits (00_scope.md R11). -/
abbrev Byte := BitVec 8

/-- A transaction word `T[9:0]` (30_encoding.md R48). -/
abbrev TxnWord := BitVec 10

/-- `clog2(n)`: the least w with `2^w >= n` (10_state.md R17). -/
def clog2 (n : Nat) : Nat :=
  if n ≤ 1 then 0 else Nat.log2 (n - 1) + 1

end Sys2Proof
end

