-- ==== Sys2Proof/Config.lean ====
section
/-! DEFINITION. The implementation parameters (00_scope.md R8, R9) as plain data, and the values the
spec leaves OPEN. The values the machine has after reset stand in Machine/Platform.lean, the legality
conditions of R10 in WellFormed.lean. -/

namespace Sys2Proof

/-- The parameters of 00_scope.md R8 (from `bufCap` to `echoBaud`) and R9 (the last four). `CHANNELS` is
two and no parameter (R8): it is the type `Machine.Channel`. `PERIOD_TICKS` is derived (43_pwm_mapper.md
R82): `Machine.periodTicks`. -/
structure Config where
  /-- `BUF_CAP`: capacity of the RawFrameBuffer in bytes. -/
  bufCap : Nat
  /-- `MARKER`: the frame-start marker byte. -/
  marker : Byte
  /-- `UPPER_MIN`. -/
  upperMin : Nat
  /-- `UPPER_MAX`. -/
  upperMax : Nat
  /-- `LOWER_MIN`. -/
  lowerMin : Nat
  /-- `LOWER_MAX`. -/
  lowerMax : Nat
  /-- `DUTY_DIV`: divisor of the duty formula. -/
  dutyDiv : Nat
  /-- `PWM_TARGET_HZ`. -/
  pwmTargetHz : Nat
  /-- `FIELD_MAX`: largest field value; fields saturate here. -/
  fieldMax : Nat
  /-- `CTRL_BAUD`: external UART, informative; no rule reads it (R8). -/
  ctrlBaud : Nat
  /-- `ECHO_BAUD`: external UART, informative; no rule reads it (R8). -/
  echoBaud : Nat
  /-- `PWM_CLK_HZ` (OPEN, R9). -/
  pwmClkHz : Nat
  /-- `PWM_W`: width in bits of each duty register (OPEN, R9). -/
  pwmW : Nat
  /-- `INIT_PWM_UPPER`: what the Upper line shows before the first commit (OPEN, R9). -/
  initPwmUpper : Nat
  /-- `INIT_PWM_LOWER`: what the Lower line shows before the first commit (OPEN, R9). -/
  initPwmLower : Nat
  deriving DecidableEq, Repr

namespace Config

/-- `CNT_W = clog2(BUF_CAP+1)`, the width of `count` (10_state.md R17). -/
def cntW (c : Config) : Nat := clog2 (c.bufCap + 1)

/-- `FLD_W = clog2(FIELD_MAX+1)`, the width of a parsed field (10_state.md R28). -/
def fldW (c : Config) : Nat := clog2 (c.fieldMax + 1)

/-- `ANG_W = clog2(max(UPPER_MAX, LOWER_MAX)+1)`, the width of an angle (10_state.md R17). -/
def angW (c : Config) : Nat := clog2 (max c.upperMax c.lowerMax + 1)

/-! The OPEN parameters of R9 at the machine's own platform: free values, nothing constrains them
(DESIGN CHOICE, entry 2). -/

/-- Free value: the platform's `PWM_CLK_HZ` (R9, U7). -/
opaque openPwmClkHz : Nat

/-- Free value: the platform's `PWM_W` (R9, U8). -/
opaque openPwmW : Nat

/-- Free value: the platform's `INIT_PWM_UPPER` (R9, U9). -/
opaque openInitPwmUpper : Nat

/-- Free value: the platform's `INIT_PWM_LOWER` (R9, U9). -/
opaque openInitPwmLower : Nat

end Config

end Sys2Proof
end

