-- ==== Sys2Proof/Machine/Operands.lean ====
section
/-! DEFINITION. Operand forms: the byte classes of the wire and the assembly of a decimal field
(30_encoding.md R51, R52, R55; 41_frame_parser.md R67). -/

namespace Sys2Proof.Machine

/-- `isDigit(b) = (0x30 <= b <= 0x39)` (30_encoding.md R51). -/
def isDigit (b : Byte) : Bool := decide (0x30 ≤ b.toNat) && decide (b.toNat ≤ 0x39)

/-- `isMarker(b) = (b = MARKER)` (30_encoding.md R51). -/
def isMarker (c : Config) (b : Byte) : Bool := b == c.marker

/-- The three classes of 30_encoding.md R51. -/
inductive ByteClass where
  | digit
  | marker
  | other
  deriving DecidableEq, Repr

/-- The class of a byte (30_encoding.md R51). `MARKER` is no digit in a legal configuration (R10), so the
order of the two tests does not matter. -/
def classify (c : Config) (b : Byte) : ByteClass :=
  if isDigit b then .digit else if isMarker c b then .marker else .other

/-- The value of a digit byte, `b - 0x30` (30_encoding.md R52). -/
def digitValue (b : Byte) : Nat := b.toNat - 0x30

/-- One step of the accumulation, `min(v*10 + d, FIELD_MAX)` (41_frame_parser.md R67). -/
def accumulate (c : Config) (v : Nat) (b : Byte) : Nat := min (v * 10 + digitValue b) c.fieldMax

/-- The loop of `Digits` (41_frame_parser.md R65) from accumulator `v`: the accumulated value and the bytes
from the first non-digit on. -/
def digitsFrom (c : Config) (v : Nat) : List Byte → Nat × List Byte
  | [] => (v, [])
  | b :: bs => if isDigit b then digitsFrom c (accumulate c v b) bs else (v, b :: bs)

/-- `Digits` (41_frame_parser.md R65). The pair's second part is what the spec's end index `k` leaves unread. -/
def digits (c : Config) (s : List Byte) : Nat × List Byte := digitsFrom c 0 s

end Sys2Proof.Machine
end

