-- ==== Sys2Proof/Machine/PwmMapper.lean ====
section
/-! DEFINITION. The arithmetic of the PWM Mapper (43_pwm_mapper.md section 1). The commit itself is a state
operation: Machine/Ops.lean. -/

namespace Sys2Proof.Machine

/-- `PERIOD_TICKS = (PWM_CLK_HZ div PWM_TARGET_HZ) - 1` (43_pwm_mapper.md R82). -/
def periodTicks (c : Config) : Nat := c.pwmClkHz / c.pwmTargetHz - 1

/-- `Duty(a) = (a * PERIOD_TICKS) div DUTY_DIV`, multiplication first and exact (43_pwm_mapper.md R83). -/
def duty (c : Config) (a : Nat) : Nat := a * periodTicks c / c.dutyDiv

end Sys2Proof.Machine
end

