-- ==== Sys2Proof/Syntax.lean ====
section
/-! DEFINITION. The operations of the core: one constructor per row of spec/opcode_table.json. -/

namespace Sys2Proof

/-- The complete opcode map of 30_encoding.md R49. -/
inductive Instr where
  /-- `RXB`: one byte from the control-link receiver (40_byte_sink.md R58). -/
  | rxb (b : Byte)
  /-- `RXEND`: the receiver's backlog is drained, the frame ends (44_frame_end.md R90). -/
  | rxend
  /-- `READ`: the host reads a snapshot of PwmState (45_snapshot_read.md R97). -/
  | read
  /-- `RESET`: the platform resets the core (70_reset_and_hazards.md R118). -/
  | reset
  deriving DecidableEq, Repr

end Sys2Proof
end

