-- ==== Sys2Proof/WellFormed.lean ====
section
/-! DEFINITION. What is well formed: a configuration (00_scope.md R10), an instruction, a transaction word
(30_encoding.md R50). -/

namespace Sys2Proof

/-- The conditions of 00_scope.md R10, one constructor each, for a refusal that says what is wrong. -/
inductive ConfigDefect where
  /-- `BUF_CAP >= 1` fails. -/
  | bufCapZero
  /-- `MARKER` is a decimal digit byte. -/
  | markerIsDigit
  /-- `UPPER_MIN <= UPPER_MAX <= FIELD_MAX` fails. -/
  | upperWindow
  /-- `LOWER_MIN <= LOWER_MAX <= FIELD_MAX` fails. -/
  | lowerWindow
  /-- `UPPER_MAX < DUTY_DIV` fails. -/
  | upperNotBelowDutyDiv
  /-- `LOWER_MAX < DUTY_DIV` fails. -/
  | lowerNotBelowDutyDiv
  /-- `PWM_TARGET_HZ >= 1` fails. -/
  | targetHzZero
  /-- `PWM_CLK_HZ div PWM_TARGET_HZ >= 2` fails. -/
  | periodTooShort
  /-- `PERIOD_TICKS < 2^PWM_W` fails. -/
  | dutyWidthTooSmall
  deriving DecidableEq, Repr

namespace Config

/-- The first condition of R10 that fails, in the order R10 writes them. -/
def defect? (c : Config) : Option ConfigDefect :=
  if c.bufCap < 1 then some .bufCapZero
  else if Machine.isDigit c.marker then some .markerIsDigit
  else if ¬ (c.upperMin ≤ c.upperMax ∧ c.upperMax ≤ c.fieldMax) then some .upperWindow
  else if ¬ (c.lowerMin ≤ c.lowerMax ∧ c.lowerMax ≤ c.fieldMax) then some .lowerWindow
  else if ¬ (c.upperMax < c.dutyDiv) then some .upperNotBelowDutyDiv
  else if ¬ (c.lowerMax < c.dutyDiv) then some .lowerNotBelowDutyDiv
  else if c.pwmTargetHz < 1 then some .targetHzZero
  else if c.pwmClkHz / c.pwmTargetHz < 2 then some .periodTooShort
  else if ¬ (Machine.periodTicks c < 2 ^ c.pwmW) then some .dutyWidthTooSmall
  else none

end Config

/-- A configuration with the proof that R10 holds of it. A machine exists only at one of these: R10's "a model
refuses any other configuration" is `Config.accept` (entry 4). -/
structure LegalConfig extends Config where
  legal : toConfig.defect? = none
  deriving DecidableEq, Repr

/-- The model takes a legal configuration and refuses any other by name (00_scope.md R10). -/
def Config.accept (c : Config) : Except ConfigDefect LegalConfig :=
  match h : c.defect? with
  | none => .ok ⟨c, h⟩
  | some d => .error d

/-- Every instruction is well formed: RXB takes any data, the others have no operand (30_encoding.md R49). -/
def Instr.wf : Instr → Bool
  | .rxb _ => true
  | .rxend => true
  | .read => true
  | .reset => true

/-- A transaction word that is not reserved (30_encoding.md R50): `kind = 0b00`, or `data = 0x00`. -/
def TxnWord.wf (w : TxnWord) : Bool :=
  w.extractLsb' 8 2 == 0b00#2 || w.extractLsb' 0 8 == 0x00#8

end Sys2Proof
end

