-- ==== Sys2Proof/Decode.lean ====
section
/-! DEFINITION. The decoder of transaction words, total and rejecting by name, and the encoder written from the
same table (30_encoding.md R48 to R50, R57). -/

namespace Sys2Proof

/-- Why a word spells no operation. -/
inductive DecodeReject where
  /-- A reserved encoding: `kind` is not RXB's and `data` is not zero (30_encoding.md R50). -/
  | reservedEncoding (kind : BitVec 2) (data : Byte)
  deriving DecidableEq, Repr

/-- `kind = T[9:8]` (30_encoding.md R48). -/
def TxnWord.kind (w : TxnWord) : BitVec 2 := w.extractLsb' 8 2

/-- `data = T[7:0]` (30_encoding.md R48). -/
def TxnWord.data (w : TxnWord) : Byte := w.extractLsb' 0 8

/-- "A word is decoded by `kind` first; `RXB` takes any `data`; the other three require `data = 0x00`"
(30_encoding.md R49); every other word is reserved (R50). -/
def decode (w : TxnWord) : Except DecodeReject Instr :=
  if TxnWord.kind w = 0b00#2 then .ok (.rxb (TxnWord.data w))
  else if TxnWord.data w ≠ 0x00#8 then .error (.reservedEncoding (TxnWord.kind w) (TxnWord.data w))
  else if TxnWord.kind w = 0b01#2 then .ok .rxend
  else if TxnWord.kind w = 0b10#2 then .ok .read
  else .ok .reset

/-- The word of an instruction, `{kind, data}` (30_encoding.md R48, R49). -/
def encode : Instr → TxnWord
  | .rxb b => 0b00#2 ++ b
  | .rxend => 0b01#2 ++ 0x00#8
  | .read => 0b10#2 ++ 0x00#8
  | .reset => 0b11#2 ++ 0x00#8

/-- The `match` column of the opcode map (30_encoding.md R49). -/
def Instr.matchBits : Instr → TxnWord
  | .rxb _ => 0x000#10
  | .rxend => 0x100#10
  | .read => 0x200#10
  | .reset => 0x300#10

/-- The `mask` column of the opcode map (30_encoding.md R49). -/
def Instr.maskBits : Instr → TxnWord
  | .rxb _ => 0x300#10
  | .rxend => 0x3FF#10
  | .read => 0x3FF#10
  | .reset => 0x3FF#10

/-- `BYTES "<text>"`: the RXB transactions of the text, in order (30_encoding.md R57). -/
def bytesTxns (text : List Byte) : List Instr := text.map .rxb

/-- `SEND "<text>"`: `BYTES` of the text, then one RXEND (30_encoding.md R57). -/
def sendTxns (text : List Byte) : List Instr := bytesTxns text ++ [.rxend]

/-- The instruction the decoder reads from a word whose bits are numbered as spec/opcode_table.json numbers them.
A transaction word has 10 bits, so a number of 2^10 or more is no word (entry 15). -/
def decodeTableWord (_nbits w : Nat) : Option Instr :=
  if w < 2 ^ 10 then
    match decode (BitVec.ofNat 10 w) with
    | .ok i => some i
    | .error _ => none
  else none

end Sys2Proof
end

