-- ==== Sys2Proof/Machine/AngleClamper.lean ====
section
/-! DEFINITION. The Angle Clamper (42_angle_clamper.md). -/

namespace Sys2Proof.Machine

/-- `clamp(v, lo, hi)` (42_angle_clamper.md R77). -/
def clamp (v lo hi : Nat) : Nat := if v < lo then lo else if v > hi then hi else v

/-- The Upper channel's angle (42_angle_clamper.md R78). -/
def clampUpper (c : Config) (upper : Nat) : Nat := clamp upper c.upperMin c.upperMax

/-- The Lower channel's angle (42_angle_clamper.md R79). -/
def clampLower (c : Config) (lower : Nat) : Nat := clamp lower c.lowerMin c.lowerMax

end Sys2Proof.Machine
end

