-- ==== Sys2Proof/Machine/Platform.lean ====
section
/-! DEFINITION. The configuration of the machine after reset: the defaults of 00_scope.md R8, and for the OPEN
parameters of R9 free values (entries 2 and 3). -/

namespace Sys2Proof.Machine

/-- `2^clog2(n) >= n`: what makes a width of `clog2` hold its values (10_state.md R17). -/
theorem le_two_pow_clog2 (n : Nat) : n ≤ 2 ^ clog2 n := by
  unfold clog2
  split
  · have := Nat.one_le_two_pow (n := 0); omega
  · have := Nat.lt_log2_self (n := n - 1); omega

/-- The defaults of 00_scope.md R8, with given values for the OPEN parameters of R9. The document's literals are
unaudited (R8; UNVERIFIED, entry 3). -/
def defaultConfig (clkHz pwmW initUpper initLower : Nat) : Config where
  bufCap := 50
  marker := 0x53#8
  upperMin := 35
  upperMax := 150
  lowerMin := 26
  lowerMax := 141
  dutyDiv := 1000
  pwmTargetHz := 55
  fieldMax := 999
  ctrlBaud := 38400
  echoBaud := 115200
  pwmClkHz := clkHz
  pwmW := pwmW
  initPwmUpper := initUpper
  initPwmLower := initLower

/-- The platform's `PWM_CLK_HZ`: the free value wherever R10 allows it (`PWM_CLK_HZ div 55 >= 2`), the least legal
clock otherwise, so that it is any legal clock (DESIGN CHOICE, entry 2). -/
def platformClkHz : Nat := max Config.openPwmClkHz 110

/-- The platform's `PWM_W`: the free value wherever R10 allows it (`PERIOD_TICKS < 2^PWM_W`), the least legal width
otherwise (DESIGN CHOICE, entry 2). -/
def platformPwmW : Nat := max Config.openPwmW (clog2 (platformClkHz / 55))

/-- The defaults of R8 are legal with every clock and width R10 allows ("With the default values every constraint but
the last three holds"). -/
theorem defaultConfig_legal {clk w iu il : Nat} (hclk : 2 ≤ clk / 55) (hw : clk / 55 - 1 < 2 ^ w) :
    (defaultConfig clk w iu il).defect? = none := by
  have hd : isDigit 0x53#8 = false := by decide
  have hp : ¬ clk / 55 < 2 := by omega
  simp [Config.defect?, defaultConfig, periodTicks, hd, hp, hw]

theorem platformClkHz_legal : 2 ≤ platformClkHz / 55 := by
  have : 110 ≤ platformClkHz := Nat.le_max_right _ _
  omega

theorem platformPwmW_legal : platformClkHz / 55 - 1 < 2 ^ platformPwmW := by
  have h1 := le_two_pow_clog2 (platformClkHz / 55)
  have h2 : 2 ^ clog2 (platformClkHz / 55) ≤ 2 ^ platformPwmW :=
    Nat.pow_le_pow_right (by omega) (Nat.le_max_right _ _)
  have h3 := platformClkHz_legal
  omega

/-- The configuration of `State.reset`. -/
def platform : LegalConfig where
  toConfig := defaultConfig platformClkHz platformPwmW Config.openInitPwmUpper Config.openInitPwmLower
  legal := defaultConfig_legal platformClkHz_legal platformPwmW_legal

end Sys2Proof.Machine
end

