-- ==== Sys2Proof/Machine/State.lean ====
section
/-! DEFINITION. The state of the machine as plain data, the observations of a run, the reasons a step can stop, and
the state after reset. -/

namespace Sys2Proof.Machine

/-- "a fixed pair" of channels (00_scope.md R8, `CHANNELS`). -/
inductive Channel where
  | upper
  | lower
  deriving DecidableEq, Repr

/-- The two PWM outputs (10_state.md R25). -/
inductive PwmOutput where
  /-- PWM0, pin PD0. -/
  | pwm0
  /-- PWM1, pin PD1. -/
  | pwm1
  deriving DecidableEq, Repr

/-- Why a frame is malformed (41_frame_parser.md R64). -/
inductive MalformedReason where
  | noMarker
  | emptyField1
  | noSeparator
  | emptyField2
  deriving DecidableEq, Repr

/-- The outcome label of an RXEND step (60_exceptions.md R100). -/
inductive FrameOutcome where
  | committed
  | malformedFrame (r : MalformedReason)
  | frameOverflow
  deriving DecidableEq, Repr

/-- The answer to a READ (45_snapshot_read.md R97). -/
inductive ReadResponse where
  | uncommitted
  | snapshot (angUpper angLower dutyUpper dutyLower : Nat)
  deriving DecidableEq, Repr

/-- The elements of 10_state.md R17 that may hold no value. -/
inductive Element where
  | bufCell (i : Nat)
  | angUpper
  | angLower
  | dutyUpper
  | dutyLower
  deriving DecidableEq, Repr

/-- PwmState, five registers (10_state.md R23). `none` is R17's "no value", a value the spec itself gives these
registers: "has no value in the model, not zero" (R32; entry 7). -/
structure PwmState where
  /-- 1 once a frame has been committed since reset. -/
  valid : Bool
  /-- The committed clamped Upper angle. -/
  angUpper : Option Nat
  /-- The committed clamped Lower angle. -/
  angLower : Option Nat
  /-- The committed Upper duty, in PWM ticks. -/
  dutyUpper : Option Nat
  /-- The committed Lower duty, in PWM ticks. -/
  dutyLower : Option Nat
  deriving DecidableEq, Repr

/-- The state: the elements of 10_state.md R17, the observations of a run (70_reset_and_hazards.md R128), and the
model's own `cfg` and `input`. Registers hold naturals, as R12 computes them; that each fits its width is part of the
invariant (entry 9). -/
structure State where
  /-- The parameters (00_scope.md R8, R9), legal by R10. The model's field, constant: entry 1. -/
  cfg : LegalConfig
  /-- RawFrameBuffer's cells, rising indices; an unlisted index has no value (R17, R20, R32). -/
  buf : List Host.Cell
  /-- Number of bytes of the current frame and index of the next write (R21). -/
  count : Nat
  /-- The frame-overflow flag (R22). -/
  ovf : Bool
  /-- PwmState (R23). -/
  pwm : PwmState
  /-- The echo byte stream, oldest first (40_byte_sink.md R61; entry 8). -/
  echo : List Byte
  /-- The outcome of every RXEND, oldest first (60_exceptions.md R100; entry 8). -/
  outcomes : List FrameOutcome
  /-- The response of every READ, oldest first (45_snapshot_read.md R97; entry 8). -/
  responses : List ReadResponse
  /-- The transactions the agents have issued and the core has not yet taken, in the total order of 20_memory.md
  R40. The model's field: entry 5. -/
  input : List TxnWord
  deriving DecidableEq, Repr

/-- The model's faults. No run from reset reaches one: "The rules never read one" (10_state.md R32). -/
inductive Fault where
  /-- Raised by RXEND (a buffer cell) and READ (a PwmState register) when they reach an element that holds no value:
  "must fault rather than supply a value" (10_state.md R32). Safe: the model stops. -/
  | noValue (e : Element)
  /-- Raised by RXEND when it reaches an index at or above `BUF_CAP`, which does not exist (20_memory.md R34). Safe:
  the model stops. -/
  | outsideBuffer (i : Nat)
  deriving DecidableEq, Repr

/-- The model's refusals. -/
inductive Refusal where
  /-- Raised by `exec` for an instruction with no meaning in the model. Safe. No arm answers it. -/
  | notModelled (mnemonic : String)
  /-- Raised by `step` for a reserved word: "a model refuses it" (30_encoding.md R50). Safe. -/
  | reservedWord (w : TxnWord)
  deriving DecidableEq, Repr

/-- PwmState after reset (10_state.md R33). -/
def PwmState.reset : PwmState where
  valid := false
  angUpper := none
  angLower := none
  dutyUpper := none
  dutyLower := none

/-- The machine right after reset (10_state.md R33, 70_reset_and_hazards.md R119): `count`, `ovf` and `valid` 0, every
other element with no value, nothing echoed, no transaction pending. -/
def State.reset : State where
  cfg := platform
  buf := []
  count := 0
  ovf := false
  pwm := PwmState.reset
  echo := []
  outcomes := []
  responses := []
  input := []

end Sys2Proof.Machine
end

