-- ==== Sys2Proof/Machine/Flags.lean ====
section
/-! DEFINITION. The core's two flags, `ovf` and `valid`, each with every way it changes (10_state.md R22, R23). -/

namespace Sys2Proof.Machine

/-- `ovf` after an RXB: set when the byte found the buffer full (40_byte_sink.md R60), "never cleared by RXB" (R58). -/
def ovfAfterByte (c : Config) (count : Nat) (ovf : Bool) : Bool := if count < c.bufCap then ovf else true

/-- `ovf` after an RXEND, "`ovf <- 0` always" (44_frame_end.md R90), and after RESET (70_reset_and_hazards.md R118). -/
def ovfCleared : Bool := false

/-- `valid` after a commit (43_pwm_mapper.md R85). RESET's value is `PwmState.reset`. -/
def validAfterCommit : Bool := true

end Sys2Proof.Machine
end

