-- ==== Sys2Proof/Machine/FrameParser.lean ====
section
/-! DEFINITION. The Frame Parser, a pure function of one frame's bytes (41_frame_parser.md). -/

namespace Sys2Proof.Machine

/-- What `Parse` returns: `Ok(upper, lower)` or `Err(r)` (41_frame_parser.md R64). -/
inductive ParseResult where
  | ok (upper lower : Nat)
  | err (r : MalformedReason)
  deriving DecidableEq, Repr

/-- The second half of `Parse`, from the byte after the first field (41_frame_parser.md R65, R70, R71). -/
def parseLower (c : Config) (upper : Nat) : List Byte → ParseResult
  | [] => .err .noSeparator
  | _sep :: s =>
    let (lower, rest) := digits c s
    if rest.length = s.length then .err .emptyField2 else .ok upper lower

/-- `Parse` from the byte after the marker run (41_frame_parser.md R65, R69). -/
def parseFields (c : Config) (s : List Byte) : ParseResult :=
  let (upper, rest) := digits c s
  if rest.length = s.length then .err .emptyField1 else parseLower c upper rest

/-- `Parse` (41_frame_parser.md R65). The spec's test `k = i`, that a digit run is empty, reads here as: as many bytes
are left after `Digits` as before it. -/
def parse (c : Config) : List Byte → ParseResult
  | [] => .err .noMarker
  | b :: s => if isMarker c b then parseFields c (s.dropWhile (isMarker c)) else .err .noMarker

end Sys2Proof.Machine
end

