-- ==== Sys2Proof/Machine/Ops.lean ====
section
/-! DEFINITION. The named operations over the frame buffer, PwmState and the outputs; discarding a frame, the core's
one counterpart of taking an exception (60_exceptions.md R104, R107). -/

namespace Sys2Proof.Machine

/-! ### The frame buffer as memory -/

/-- What an index holds; an unlisted one holds no value (10_state.md R32). -/
def Memory.read : List Host.Cell → Nat → Option Byte
  | [], _ => none
  | (a, b) :: m, i => if a = i then some b else Memory.read m i

/-- Writes one byte, keeping the indices rising. -/
def Memory.write : List Host.Cell → Nat → Byte → List Host.Cell
  | [], i, v => [(i, v)]
  | (a, b) :: m, i, v =>
    if i < a then (i, v) :: (a, b) :: m
    else if i = a then (i, v) :: m
    else (a, b) :: Memory.write m i v

/-- The canonical form: indices strictly rising. An unlisted index reads as no value, which no entry can equal. -/
abbrev Memory.wf (m : List Host.Cell) : Prop := m.Pairwise (fun x y => x.1 < y.1)

/-- What `buf[i]` holds, if anything. -/
def State.cell (s : State) (i : Nat) : Option Byte := Memory.read s.buf i

/-- `buf[i]` read by a rule (00_scope.md R13): a fault at an index that does not exist (20_memory.md R34) or at a cell
with no value (10_state.md R32). -/
def State.readCell (s : State) (i : Nat) : Except Fault Byte :=
  if i < s.cfg.bufCap then
    match s.cell i with
    | some b => .ok b
    | none => .error (.noValue (.bufCell i))
  else .error (.outsideBuffer i)

/-- `n` bytes read from index `i` up. -/
def State.readBytes (s : State) : Nat → Nat → Except Fault (List Byte)
  | 0, _ => .ok []
  | n + 1, i =>
    match s.readCell i with
    | .error f => .error f
    | .ok b =>
      match s.readBytes n (i + 1) with
      | .error f => .error f
      | .ok bs => .ok (b :: bs)

/-- `buf[0..count)`, the bytes of the current frame (10_state.md R20), as RXEND reads them (20_memory.md R39;
entry 10). -/
def State.frameBytes (s : State) : Except Fault (List Byte) := s.readBytes s.count 0

/-! ### The Byte Sink's operations -/

/-- `emit ECHO(b)` (40_byte_sink.md R61). -/
def State.emitEcho (s : State) (b : Byte) : State := { s with echo := s.echo ++ [b] }

/-- `buf[count] <- b; count <- count + 1` (40_byte_sink.md R59). -/
def State.appendByte (s : State) (b : Byte) : State :=
  { s with buf := Memory.write s.buf s.count b, count := s.count + 1 }

/-- The full case: the byte is not stored (40_byte_sink.md R60). -/
def State.sinkByte (s : State) (b : Byte) : State :=
  let ovf := ovfAfterByte s.cfg.toConfig s.count s.ovf
  if s.count < s.cfg.bufCap then { s.appendByte b with ovf := ovf } else { s with ovf := ovf }

/-! ### The commit -/

/-- The PwmState that `Commit(ang_u, ang_l)` writes (43_pwm_mapper.md R85). -/
def PwmState.committed (c : Config) (angU angL : Nat) : PwmState where
  valid := validAfterCommit
  angUpper := some angU
  angLower := some angL
  dutyUpper := some (duty c angU)
  dutyLower := some (duty c angL)

/-- `Commit(ang_u, ang_l)`: all of PwmState in one update (43_pwm_mapper.md R85). The output changes with it, since the
lines are a view of PwmState (`State.channelLine`). It cannot fail (R88; entry 13). -/
def State.commit (s : State) (angU angL : Nat) : State :=
  { s with pwm := PwmState.committed s.cfg.toConfig angU angL }

/-! ### The end of a frame -/

/-- `count <- 0; ovf <- 0`; the cells are not erased (44_frame_end.md R91). -/
def State.clearFrame (s : State) : State := { s with count := 0, ovf := ovfCleared }

/-- `finish <Outcome>` (00_scope.md R13, 60_exceptions.md R100). -/
def State.finish (s : State) (o : FrameOutcome) : State := { s with outcomes := s.outcomes ++ [o] }

/-- The effect of an error: the frame state is cleared and nothing else changes but the step's label
(60_exceptions.md R104). There is no trap to take and none to return from (R107, R108). -/
def State.discardFrame (s : State) (o : FrameOutcome) : State := s.clearFrame.finish o

/-- A parsed frame clamped, committed and cleared (44_frame_end.md R90). -/
def State.commitFrame (s : State) (upper lower : Nat) : State :=
  ((s.commit (clampUpper s.cfg.toConfig upper) (clampLower s.cfg.toConfig lower)).clearFrame).finish .committed

/-- The number of an outcome (60_exceptions.md R101). -/
def FrameOutcome.code : FrameOutcome → Nat
  | .committed => 0
  | .malformedFrame .noMarker => 1
  | .malformedFrame .emptyField1 => 2
  | .malformedFrame .noSeparator => 3
  | .malformedFrame .emptyField2 => 4
  | .frameOverflow => 5

/-! ### The snapshot -/

/-- What READ answers (45_snapshot_read.md R97); a fault where `valid = 1` stands beside a register with no value
(10_state.md R32), which the invariant of R24 rules out. -/
def PwmState.answer (p : PwmState) : Except Fault ReadResponse :=
  if p.valid = false then .ok .uncommitted
  else
    match p.angUpper, p.angLower, p.dutyUpper, p.dutyLower with
    | some au, some al, some du, some dl => .ok (.snapshot au al du dl)
    | none, _, _, _ => .error (.noValue .angUpper)
    | some _, none, _, _ => .error (.noValue .angLower)
    | some _, some _, none, _ => .error (.noValue .dutyUpper)
    | some _, some _, some _, none => .error (.noValue .dutyLower)

/-- `respond r`: the READ response output (10_state.md R29). -/
def State.respond (s : State) (r : ReadResponse) : State := { s with responses := s.responses ++ [r] }

/-! ### Reset -/

/-- `buf[0..BUF_CAP)`, PwmState, `count` and `ovf` to their reset values (70_reset_and_hazards.md R118). The record of
the run so far stays (entry 8), and so do the transactions not yet taken. -/
def State.clearAll (s : State) : State :=
  { s with buf := [], count := 0, ovf := ovfCleared, pwm := PwmState.reset }

/-! ### The PWM outputs -/

/-- The duty register of a channel (10_state.md R17). -/
def PwmState.dutyOf (p : PwmState) : Channel → Option Nat
  | .upper => p.dutyUpper
  | .lower => p.dutyLower

/-- What external initialization left on a channel's line (00_scope.md R9). -/
def initPwm (c : Config) : Channel → Nat
  | .upper => c.initPwmUpper
  | .lower => c.initPwmLower

/-- The channel an output belongs to: "{Lower (PD0/PWM0), Upper (PD1/PWM1)}" (10_state.md R25). -/
def PwmOutput.channel : PwmOutput → Channel
  | .pwm0 => .lower
  | .pwm1 => .upper

/-- What a channel's PWM line shows: the duty register while `valid = 1`, else what external initialization set
(10_state.md R25, 43_pwm_mapper.md R87; entry 12). -/
def State.channelLine (s : State) (ch : Channel) : Option Nat :=
  if s.pwm.valid then s.pwm.dutyOf ch else some (initPwm s.cfg.toConfig ch)

/-- What a PWM output shows. -/
def State.pwmLine (s : State) (o : PwmOutput) : Option Nat := s.channelLine o.channel

end Sys2Proof.Machine
end

