-- ==== Sys2Proof/Machine/ByteSink.lean ====
section
/-! DEFINITION. RXB, receive one byte (40_byte_sink.md). -/

namespace Sys2Proof.Machine

/-- RXB (40_byte_sink.md R58): echo the byte, then store it or record the overflow. It always completes. -/
def execRxb (b : Byte) (s : State) : Host.Outcome State Fault Refusal := .next ((s.emitEcho b).sinkByte b)

end Sys2Proof.Machine
end

