-- ==== Sys2Proof/Machine/FrameEnd.lean ====
section
/-! DEFINITION. RXEND, end of frame (44_frame_end.md). -/

namespace Sys2Proof.Machine

/-- RXEND (44_frame_end.md R90): overflow is decided before the parse (60_exceptions.md R106). -/
def execRxend (s : State) : Host.Outcome State Fault Refusal :=
  if s.ovf then .next (s.discardFrame .frameOverflow)
  else
    match s.frameBytes with
    | .error f => .fault f
    | .ok bytes =>
      match parse s.cfg.toConfig bytes with
      | .err r => .next (s.discardFrame (.malformedFrame r))
      | .ok upper lower => .next (s.commitFrame upper lower)

end Sys2Proof.Machine
end

