-- ==== Sys2Proof/Machine/Reset.lean ====
section
/-! DEFINITION. RESET, reset the core (70_reset_and_hazards.md). -/

namespace Sys2Proof.Machine

/-- RESET (70_reset_and_hazards.md R118): a frame in progress is dropped without an outcome and without a commit. -/
def execReset (s : State) : Host.Outcome State Fault Refusal := .next s.clearAll

end Sys2Proof.Machine
end

