-- ==== Sys2Proof/Machine/Snapshot.lean ====
section
/-! DEFINITION. READ, read a snapshot of PwmState (45_snapshot_read.md). -/

namespace Sys2Proof.Machine

/-- READ (45_snapshot_read.md R97): it answers and changes no state. -/
def execRead (s : State) : Host.Outcome State Fault Refusal :=
  match s.pwm.answer with
  | .error f => .fault f
  | .ok r => .next (s.respond r)

end Sys2Proof.Machine
end

