-- ==== Sys2Proof/Machine/Dispatch.lean ====
section
/-! DEFINITION. One arm per operation of the core. -/

namespace Sys2Proof.Machine

/-- The effect of one transaction. -/
def exec (i : Instr) (s : State) : Host.Outcome State Fault Refusal :=
  match i with
  | .rxb b => Sys2Proof.Machine.execRxb b s
  | .rxend => Sys2Proof.Machine.execRxend s
  | .read => Sys2Proof.Machine.execRead s
  | .reset => Sys2Proof.Machine.execReset s

end Sys2Proof.Machine
end

