-- ==== Sys2Proof/Machine/Transaction.lean ====
section
/-! DEFINITION. How a transaction reaches the core: the front of the total order of 20_memory.md R40 (entry 5). -/

namespace Sys2Proof.Machine

/-- The word of the next transaction, if an agent has issued one. -/
def State.nextWord (s : State) : Option TxnWord := s.input.head?

/-- The state once that word is taken. -/
def State.takeWord (s : State) : State := { s with input := s.input.tail }

/-- An agent issues `w` as the very next transaction. -/
def State.presentWord (s : State) (w : TxnWord) : State := { s with input := w :: s.input }

end Sys2Proof.Machine
end

