-- ==== Sys2Proof/Machine/Step.lean ====
section
/-! DEFINITION. One step: take the next transaction of the total order and run it. -/

namespace Sys2Proof.Machine

/-- One step. The front word of `input` is taken, decoded and run; a reserved word is refused (30_encoding.md R50). With
no transaction pending the core "is idle between transactions and keeps all state while idle" (60_exceptions.md R117;
entry 6). -/
def step (s : State) : Host.Outcome State Fault Refusal :=
  match s.nextWord with
  | none => .next s
  | some w =>
    match decode w with
    | .error _ => .refused (.reservedWord w)
    | .ok i => exec i s.takeWord

/-- The state in which an agent has issued the word `w` as the very next transaction, ahead of those already pending
(entry 5). A word has 10 bits: of a number that is no word, the low ten (entry 15). -/
def State.withFetchWord (s : State) (_nbits w : Nat) : State := s.presentWord (BitVec.ofNat 10 w)

end Sys2Proof.Machine
end

