-- ==== Sys2Proof/Safety.lean ====
section
/-! DEFINITION. The terms claims use: runs of transactions, and the invariant of the states a run reaches. -/

namespace Sys2Proof.Machine

/-- The transactions of a list, one after the other, stopping at the first fault or refusal (20_memory.md R40). -/
def execAll : List Instr → State → Host.Outcome State Fault Refusal
  | [], s => .next s
  | i :: is, s =>
    match exec i s with
    | .next t => execAll is t
    | .fault f => .fault f
    | .refused r => .refused r

/-- The agents that issue transactions (00_scope.md R7). -/
inductive Agent where
  /-- The control-link UART: bytes and the end of the backlog. -/
  | environment
  /-- Foreground logic. -/
  | host
  /-- Issues RESET. -/
  | platform
  deriving DecidableEq, Repr

/-- Who may issue a transaction (70_reset_and_hazards.md R129, 60_exceptions.md R112). -/
def issuer : Instr → Agent
  | .rxb _ => .environment
  | .rxend => .environment
  | .read => .host
  | .reset => .platform

/-- No frame in progress: `count = 0` and `ovf = 0` (40_byte_sink.md R62). -/
def State.FrameEmpty (s : State) : Prop := s.count = 0 ∧ s.ovf = false

/-- Every cell of the current frame, `buf[0..count)`, exists and holds a byte (10_state.md R20, R32). -/
def State.FrameReadable (s : State) : Prop :=
  s.count ≤ s.cfg.bufCap ∧ ∀ i, i < s.count → ∃ b, s.cell i = some b

/-- The invariant of PwmState (10_state.md R24) at a configuration. -/
structure PwmState.Inv (c : Config) (p : PwmState) : Prop where
  /-- With `valid = 1` both angles lie in their windows and both duties are `Duty` of them. -/
  committed : p.valid = true → ∃ angU angL,
    p.angUpper = some angU ∧ c.upperMin ≤ angU ∧ angU ≤ c.upperMax ∧
    p.angLower = some angL ∧ c.lowerMin ≤ angL ∧ angL ≤ c.lowerMax ∧
    p.dutyUpper = some (duty c angU) ∧ p.dutyLower = some (duty c angL)
  /-- With `valid = 0` the four registers hold no value. -/
  uncommitted : p.valid = false →
    p.angUpper = none ∧ p.angLower = none ∧ p.dutyUpper = none ∧ p.dutyLower = none

/-- The invariant of the machine: every step keeps it. -/
structure State.Inv (s : State) : Prop where
  /-- `0 <= count <= BUF_CAP`, and the frame's cells hold bytes (10_state.md R21, R20). -/
  frame : s.FrameReadable
  /-- `ovf = 1` implies `count = BUF_CAP` (10_state.md R22). -/
  overflow : s.ovf = true → s.count = s.cfg.bufCap
  /-- The buffer keeps its canonical form. -/
  canonical : Memory.wf s.buf
  /-- No cell outside the index space (20_memory.md R34). -/
  inSpace : ∀ x ∈ s.buf, x.1 < s.cfg.bufCap
  /-- The invariant of PwmState (10_state.md R24). -/
  pwm : s.pwm.Inv s.cfg.toConfig

/-- The current frame is what the echo output last emitted, as long as it has not overflowed: "the i-th byte (from 0)
the environment delivers in a frame is stored at `buf[i]` ..., and it is the i-th byte echoed in that frame"
(20_memory.md R37). -/
def State.FrameIsLastEcho (s : State) : Prop :=
  s.ovf = false → ∃ bytes before, s.frameBytes = .ok bytes ∧ s.echo = before ++ bytes

/-- A run of decimal digit bytes (00_scope.md R16, Field). -/
abbrev DigitRun (s : List Byte) : Prop := ∀ b ∈ s, isDigit b = true

/-- The decimal value of a digit run, unbounded (41_frame_parser.md R68). -/
def decValue (s : List Byte) : Nat := s.foldl (fun v b => v * 10 + digitValue b) 0

/-- A run of marker bytes. -/
abbrev MarkerRun (c : Config) (s : List Byte) : Prop := ∀ b ∈ s, isMarker c b = true

/-- A sequence that does not begin with a digit: what follows a maximal digit run. -/
def NoDigitFirst (s : List Byte) : Prop := ∀ b t, s = b :: t → isDigit b = false

/-- The frame format of 30_encoding.md R53: `'S'+ digit+ <sep> digit+` and a trailer, each run maximal. -/
structure ValidFrame (c : Config) (markers field1 : List Byte) (sep : Byte) (field2 trailer : List Byte) : Prop where
  markers_ne : markers ≠ []
  markers_run : MarkerRun c markers
  field1_ne : field1 ≠ []
  field1_run : DigitRun field1
  sep_noDigit : isDigit sep = false
  field2_ne : field2 ≠ []
  field2_run : DigitRun field2
  trailer_noDigit : NoDigitFirst trailer

/-- The decimal spelling of a number, with `zeros` leading zeros. -/
def decimalSpelling (zeros n : Nat) : List Byte :=
  List.replicate zeros 0x30#8 ++ (Nat.digits 10 n).reverse.map (fun d => BitVec.ofNat 8 (0x30 + d))

/-- What a parsed frame leaves in PwmState, written out from 42_angle_clamper.md R78, R79 and 43_pwm_mapper.md R82, R83,
R85. -/
def pwmOfFields (c : Config) (u l : Nat) : PwmState where
  valid := true
  angUpper := some (max c.upperMin (min u c.upperMax))
  angLower := some (max c.lowerMin (min l c.lowerMax))
  dutyUpper := some (max c.upperMin (min u c.upperMax) * (c.pwmClkHz / c.pwmTargetHz - 1) / c.dutyDiv)
  dutyLower := some (max c.lowerMin (min l c.lowerMax) * (c.pwmClkHz / c.pwmTargetHz - 1) / c.dutyDiv)

/-- Two states that differ at most in cells of the buffer that belong to no frame, those at index `count` or above
(10_state.md R20). -/
structure SameButStaleCells (s t : State) : Prop where
  cfg : s.cfg = t.cfg
  count : s.count = t.count
  ovf : s.ovf = t.ovf
  cells : ∀ i, i < s.count → s.cell i = t.cell i
  pwm : s.pwm = t.pwm
  echo : s.echo = t.echo
  outcomes : s.outcomes = t.outcomes
  responses : s.responses = t.responses
  input : s.input = t.input

end Sys2Proof.Machine
end

