-- ==== Sys2Proof/Certificates/Slice0/Obligations.lean ====
section
/-! DEFINITION. The statements for the provers. Each docstring names the rule of spec/ it formalises. -/

open Sys2Proof Sys2Proof.Machine

/-! ### Encoding (30_encoding.md) -/

/-- The spec's decode vectors (95_test_vectors.md 2.1): the words of the four operations, written out, and four reserved
words. -/
def Obligations.WordsOfTheOpcodeMapDecode : Prop :=
  decode 0b0001010011#10 = .ok (.rxb 0x53#8) ∧ decode 0b0000000000#10 = .ok (.rxb 0x00#8) ∧
  decode 0b0011111111#10 = .ok (.rxb 0xFF#8) ∧ decode 0b0100000000#10 = .ok .rxend ∧
  decode 0b1000000000#10 = .ok .read ∧ decode 0b1100000000#10 = .ok .reset ∧
  decode 0x101#10 = .error (.reservedEncoding 0b01#2 0x01#8) ∧
  decode 0x1FF#10 = .error (.reservedEncoding 0b01#2 0xFF#8) ∧
  decode 0x280#10 = .error (.reservedEncoding 0b10#2 0x80#8) ∧
  decode 0x3FF#10 = .error (.reservedEncoding 0b11#2 0xFF#8)

/-- Decoding and encoding agree both ways, and a word decodes to an operation only under that operation's match and mask
(30_encoding.md R49; the transaction word is the spec's own decision D2). -/
def Obligations.DecodeInvertsEncode : Prop :=
  (∀ i : Instr, i.wf = true → decode (encode i) = .ok i) ∧
  (∀ (w : TxnWord) (i : Instr), decode w = .ok i → encode i = w ∧ w &&& i.maskBits = i.matchBits)

/-- R50: the reserved words are exactly those with a `kind` other than 0b00 and `data` other than 0x00; every other word
is one of the four operations; a step on a reserved word is refused. -/
def Obligations.ReservedWordsAreRefused : Prop :=
  (∀ w : TxnWord, (∃ i, decode w = .ok i) ↔
    ¬ (TxnWord.kind w ∈ [0b01#2, 0b10#2, 0b11#2] ∧ TxnWord.data w ≠ 0x00#8)) ∧
  (∀ (w : TxnWord) (rest : List TxnWord) (s : State), s.input = w :: rest →
    TxnWord.kind w ∈ [0b01#2, 0b10#2, 0b11#2] → TxnWord.data w ≠ 0x00#8 →
    step s = .refused (.reservedWord w))

/-- R51: the classes of a byte by its value, with the digit row's match and mask, at the default marker. -/
def Obligations.ByteClassesPartitionTheBytes : Prop :=
  ∀ (c : Config) (b : Byte), c.marker = 0x53#8 →
    (classify c b = .digit ↔ 0x30 ≤ b.toNat ∧ b.toNat ≤ 0x39) ∧
    (classify c b = .digit ↔ b &&& 0xF8#8 = 0x30#8 ∨ b &&& 0xFE#8 = 0x38#8) ∧
    (classify c b = .marker ↔ b = 0x53#8) ∧
    (classify c b = .other ↔
      b.toNat ≤ 0x2F ∨ (0x3A ≤ b.toNat ∧ b.toNat ≤ 0x52) ∨ 0x54 ≤ b.toNat)

/-! ### A step and a run -/

/-- A step takes the front word of `input`, decodes it and runs it; a word that does not decode is refused; with no word
pending nothing changes. The queue and the idle step are the model's own (entries 5 and 6; "idle between transactions and
keeps all state while idle", R117). -/
def Obligations.StepRunsTheDecodedTransaction : Prop :=
  (∀ (s : State) (w : TxnWord) (rest : List TxnWord) (i : Instr),
    s.input = w :: rest → decode w = .ok i → i.wf = true → step s = exec i { s with input := rest }) ∧
  (∀ (s : State) (w : TxnWord) (rest : List TxnWord) (e : DecodeReject),
    s.input = w :: rest → decode w = .error e → step s = .refused (.reservedWord w)) ∧
  (∀ s : State, s.input = [] → step s = .next s)

/-- The transactions of any agents, in whatever total order they stand in `input`, take effect one at a time in that
order, each on the state the previous one left (20_memory.md R40; that the order stands in State as a list is the
model's own, entry 5). -/
def Obligations.DeliveredWordsRunInTheirOrder : Prop :=
  ∀ (is : List Instr) (rest : List TxnWord) (s : State), s.input = is.map encode ++ rest →
    core.run is.length s = execAll is { s with input := rest }

/-! ### The configuration -/

/-- R10: the model takes a configuration exactly when all the conditions hold and refuses any other; at the default
values (and the default 55 Hz) what is left to hold is what R10 asks of the OPEN parameters. -/
def Obligations.OnlyLegalConfigurationsAreAccepted : Prop :=
  (∀ c : Config, (∃ lc : LegalConfig, c.accept = .ok lc ∧ lc.toConfig = c) ↔
    1 ≤ c.bufCap ∧ isDigit c.marker = false ∧
    c.upperMin ≤ c.upperMax ∧ c.upperMax ≤ c.fieldMax ∧
    c.lowerMin ≤ c.lowerMax ∧ c.lowerMax ≤ c.fieldMax ∧
    c.upperMax < c.dutyDiv ∧ c.lowerMax < c.dutyDiv ∧
    1 ≤ c.pwmTargetHz ∧ 2 ≤ c.pwmClkHz / c.pwmTargetHz ∧
    c.pwmClkHz / c.pwmTargetHz - 1 < 2 ^ c.pwmW) ∧
  (∀ c : Config, (∃ lc : LegalConfig, c.accept = .ok lc) ∨ ∃ d, c.accept = .error d) ∧
  (∀ clk w iu il : Nat, (∃ lc : LegalConfig, (defaultConfig clk w iu il).accept = .ok lc) ↔
    2 ≤ clk / 55 ∧ clk / 55 - 1 < 2 ^ w)

/-- In a state that meets the invariant every register fits the width 10_state.md R17 gives it, and a parsed field fits
`FLD_W` (R28). The widths are the spec's own decision D30; that registers are naturals is the model's own, entry 9. -/
def Obligations.ValuesFitTheirWidths : Prop :=
  (∀ s : State, s.Inv →
    s.count < 2 ^ s.cfg.cntW ∧
    (∀ v, s.pwm.angUpper = some v ∨ s.pwm.angLower = some v → v < 2 ^ s.cfg.angW) ∧
    (∀ v, s.pwm.dutyUpper = some v ∨ s.pwm.dutyLower = some v →
      v < periodTicks s.cfg.toConfig ∧ v < 2 ^ s.cfg.pwmW)) ∧
  (∀ (c : Config) (bytes : List Byte) (u l : Nat), parse c bytes = .ok u l →
    u ≤ c.fieldMax ∧ l ≤ c.fieldMax ∧ u < 2 ^ c.fldW ∧ l < 2 ^ c.fldW)

/-! ### Reset (70_reset_and_hazards.md) -/

/-- R33: the value of every element after reset; the lines show what external initialization set; nothing echoed. -/
def Obligations.ResetStateHoldsTheResetValues : Prop :=
  State.reset.count = 0 ∧ State.reset.ovf = false ∧ State.reset.pwm.valid = false ∧
  (∀ i, State.reset.cell i = none) ∧
  State.reset.pwm.angUpper = none ∧ State.reset.pwm.angLower = none ∧
  State.reset.pwm.dutyUpper = none ∧ State.reset.pwm.dutyLower = none ∧
  State.reset.pwmLine .pwm1 = some State.reset.cfg.initPwmUpper ∧
  State.reset.pwmLine .pwm0 = some State.reset.cfg.initPwmLower ∧
  State.reset.echo = []

/-- R118: RESET always completes and leaves every element at its reset value; a frame in progress is dropped without an
outcome and without a commit; the core stops driving the lines; from the reset state nothing changes. -/
def Obligations.ResetTransactionClearsEveryElement : Prop :=
  decode 0x300#10 = .ok .reset ∧
  (∀ s : State, ∃ t, exec .reset s = .next t ∧
    t.count = 0 ∧ t.ovf = false ∧ t.pwm.valid = false ∧
    t.pwm.angUpper = none ∧ t.pwm.angLower = none ∧ t.pwm.dutyUpper = none ∧ t.pwm.dutyLower = none ∧
    (∀ i, t.cell i = none) ∧ t.outcomes = s.outcomes ∧
    t.pwmLine .pwm1 = some s.cfg.initPwmUpper ∧ t.pwmLine .pwm0 = some s.cfg.initPwmLower ∧
    (∃ u, exec .read t = .next u ∧ u.responses = t.responses ++ [.uncommitted])) ∧
  exec .reset State.reset = .next State.reset

/-- The reset state meets the invariant (10_state.md R21, R22, R24) and its frame, the empty one, is what was echoed
last. -/
def Obligations.ResetStateMeetsTheInvariant : Prop :=
  State.reset.Inv ∧ State.reset.FrameIsLastEcho

/-! ### RXB (40_byte_sink.md) -/

/-- R59, with the frame of the store case: no other cell and nothing else changes but the echo. -/
def Obligations.RxbStoresAtTheWriteIndex : Prop :=
  ∀ (b : Byte) (s : State), s.count < s.cfg.bufCap →
    ∃ t, exec (.rxb b) s = .next t ∧
      t.cell s.count = some b ∧ t.count = s.count + 1 ∧
      (∀ i, i ≠ s.count → t.cell i = s.cell i) ∧
      (∀ bytes, s.frameBytes = .ok bytes → t.frameBytes = .ok (bytes ++ [b])) ∧
      t.ovf = s.ovf ∧ t.echo = s.echo ++ [b] ∧
      t.pwm = s.pwm ∧ t.outcomes = s.outcomes ∧ t.responses = s.responses ∧
      t.cfg = s.cfg ∧ t.input = s.input

/-- R60: in the full case RXB stores nothing, keeps `count` and sets `ovf`; the first byte that overflows is the
(BUF_CAP + 1)-th of the frame; the frame is discarded as a whole by the RXEND that ends it, whatever bytes follow in the
same burst (the spec's own decision D7). -/
def Obligations.OverflowingFrameIsDiscardedWhole : Prop :=
  (∀ (b : Byte) (s : State), s.count = s.cfg.bufCap →
    exec (.rxb b) s = .next { s with ovf := true, echo := s.echo ++ [b] }) ∧
  (∀ (bytes : List Byte) (s : State), s.FrameEmpty →
    ∃ t, execAll (bytesTxns bytes) s = .next t ∧ (t.ovf = true ↔ s.cfg.bufCap + 1 ≤ bytes.length)) ∧
  (∀ (bytes : List Byte) (s : State), s.FrameEmpty → s.cfg.bufCap < bytes.length →
    ∃ t, execAll (sendTxns bytes) s = .next t ∧
      t.outcomes = s.outcomes ++ [.frameOverflow] ∧ t.FrameEmpty ∧ t.pwm = s.pwm ∧
      (∀ o, t.pwmLine o = s.pwmLine o))

/-- Every RXB emits its byte, unchanged, in the same step and in arrival order, in the full case too (40_byte_sink.md R61;
the spec's own decision D8); no other transaction emits (20_memory.md R39), and RXEND leaves the echo as it is
(60_exceptions.md R104). That RESET leaves the recorded echo is the model's own reading of R128, entry 8. -/
def Obligations.EchoIsExactlyTheBytesReceived : Prop :=
  (∀ (b : Byte) (s : State), ∃ t, exec (.rxb b) s = .next t ∧ t.echo = s.echo ++ [b]) ∧
  (∀ (bytes : List Byte) (s : State), ∃ t, execAll (bytesTxns bytes) s = .next t ∧ t.echo = s.echo ++ bytes) ∧
  (∀ (i : Instr) (s t : State), exec i s = .next t →
    t.echo = s.echo ++ (match i with | .rxb b => [b] | .rxend => [] | .read => [] | .reset => []))

/-- From an empty frame a burst of any length leaves its first BUF_CAP bytes in arrival order, byte i at index i, and
nothing of PwmState, the outcomes or the responses changes (10_state.md R20, R21; 20_memory.md R37; 40_byte_sink.md
R63). -/
def Obligations.BurstFillsTheBufferInArrivalOrder : Prop :=
  ∀ (bytes : List Byte) (s : State), s.FrameEmpty →
    ∃ t, execAll (bytesTxns bytes) s = .next t ∧
      t.count = min bytes.length s.cfg.bufCap ∧
      (∀ i, i < t.count → t.cell i = bytes[i]?) ∧
      t.frameBytes = .ok (bytes.take s.cfg.bufCap) ∧
      (∀ i, t.count ≤ i → t.cell i = s.cell i) ∧
      t.pwm = s.pwm ∧ t.outcomes = s.outcomes ∧ t.responses = s.responses ∧ t.cfg = s.cfg ∧ t.input = s.input

/-! ### Parse (41_frame_parser.md) -/

/-- Parse accepts exactly the frames of the grammar (30_encoding.md R53), the first field the upper and the second the
lower angle, each the saturated value of its digit run (R55; 41_frame_parser.md R67 and R68, the latter derived by the
spec). Positions and empty runs are as the spec's own decisions D4, D5 say, saturation as D6 says. -/
def Obligations.ParseAcceptsExactlyTheGrammar : Prop :=
  ∀ (c : LegalConfig) (bytes : List Byte) (u l : Nat),
    parse c.toConfig bytes = .ok u l ↔
      ∃ markers field1 sep field2 trailer,
        bytes = markers ++ field1 ++ [sep] ++ field2 ++ trailer ∧
        ValidFrame c.toConfig markers field1 sep field2 trailer ∧
        u = min (decValue field1) c.fieldMax ∧ l = min (decValue field2) c.fieldMax

/-- When each reason is given, as conditions on the bytes: the first failing check (41_frame_parser.md R66, R69, R70,
R71, R73). The four conditions exclude each other. -/
def Obligations.ParseErrorsNameTheFirstFailingCheck : Prop :=
  ∀ (c : LegalConfig) (bytes : List Byte),
    (parse c.toConfig bytes = .err .noMarker ↔ ∀ b rest, bytes = b :: rest → b ≠ c.marker) ∧
    (parse c.toConfig bytes = .err .emptyField1 ↔
      ∃ markers rest, bytes = markers ++ rest ∧ markers ≠ [] ∧ MarkerRun c.toConfig markers ∧
        ∀ b t, rest = b :: t → b ≠ c.marker ∧ isDigit b = false) ∧
    (parse c.toConfig bytes = .err .noSeparator ↔
      ∃ markers field1, bytes = markers ++ field1 ∧ markers ≠ [] ∧ MarkerRun c.toConfig markers ∧
        field1 ≠ [] ∧ DigitRun field1) ∧
    (parse c.toConfig bytes = .err .emptyField2 ↔
      ∃ markers field1 sep rest, bytes = markers ++ field1 ++ sep :: rest ∧ markers ≠ [] ∧
        MarkerRun c.toConfig markers ∧ field1 ≠ [] ∧ DigitRun field1 ∧ isDigit sep = false ∧ NoDigitFirst rest)

/-- The saturation law: `Digits` of a maximal digit run is the lesser of its unbounded value and FIELD_MAX, and clamping
does not see the difference on either channel (41_frame_parser.md R68, which the spec derives from R67 and R77). -/
def Obligations.DigitRunsSaturateUnseen : Prop :=
  (∀ (c : Config) (run rest : List Byte), DigitRun run → NoDigitFirst rest →
    digits c (run ++ rest) = (min (decValue run) c.fieldMax, rest)) ∧
  (∀ (c : LegalConfig) (t : Nat),
    clamp (min t c.fieldMax) c.upperMin c.upperMax = clamp t c.upperMin c.upperMax ∧
    clamp (min t c.fieldMax) c.lowerMin c.lowerMax = clamp t c.lowerMin c.lowerMax)

/-- Round trip: a frame spelled `S<u>,<l>`, with any number of leading zeros, decodes to `(u, l)` exactly
(41_frame_parser.md R75, which the spec derives from R65 and R68). -/
def Obligations.DecimalSpellingsRoundTrip : Prop :=
  ∀ (c : LegalConfig) (u l zu zl : Nat), u ≤ c.fieldMax → l ≤ c.fieldMax →
    decimalSpelling zu u ≠ [] → decimalSpelling zl l ≠ [] →
    parse c.toConfig
      (c.marker :: (decimalSpelling zu u ++ 0x2C#8 :: decimalSpelling zl l)) = .ok u l

/-- R72: every byte after the second field is ignored, a second frame in the same burst and a CR LF among them. -/
def Obligations.BytesAfterTheSecondFieldAreIgnored : Prop :=
  ∀ (c : LegalConfig) (markers field1 : List Byte) (sep : Byte) (field2 trailer : List Byte),
    ValidFrame c.toConfig markers field1 sep field2 trailer →
    parse c.toConfig (markers ++ field1 ++ [sep] ++ field2 ++ trailer) =
      parse c.toConfig (markers ++ field1 ++ [sep] ++ field2) ∧
    (∀ second, parse c.toConfig (markers ++ field1 ++ [sep] ++ field2 ++ c.marker :: second) =
      parse c.toConfig (markers ++ field1 ++ [sep] ++ field2)) ∧
    parse c.toConfig (markers ++ field1 ++ [sep] ++ field2 ++ [0x0D#8, 0x0A#8]) =
      parse c.toConfig (markers ++ field1 ++ [sep] ++ field2)

/-- A valid frame has at least 4 bytes (30_encoding.md R54). -/
def Obligations.ValidFramesHaveAtLeastFourBytes : Prop :=
  (∀ (c : LegalConfig) (bytes : List Byte) (u l : Nat), parse c.toConfig bytes = .ok u l → 4 ≤ bytes.length) ∧
  (∀ c : LegalConfig, parse c.toConfig [c.marker, 0x30#8, 0x2C#8, 0x30#8] = .ok 0 0)

/-! ### Clamp and duty (42_angle_clamper.md, 43_pwm_mapper.md) -/

/-- R77: the clamp's three cases; the result lies in the window and is the value exactly when the value does. -/
def Obligations.ClampLandsInItsWindow : Prop :=
  ∀ v lo hi : Nat, lo ≤ hi →
    (v < lo → clamp v lo hi = lo) ∧ (hi < v → clamp v lo hi = hi) ∧
    (lo ≤ clamp v lo hi ∧ clamp v lo hi ≤ hi) ∧
    (clamp v lo hi = v ↔ lo ≤ v ∧ v ≤ hi)

/-- The duty of an angle no greater than either window's end is below the period and fits the register, and a greater
angle never has a lesser duty (43_pwm_mapper.md R84, which the spec derives from R83). -/
def Obligations.DutyIsBelowThePeriodAndMonotone : Prop :=
  ∀ c : LegalConfig,
    (∀ a, a ≤ max c.upperMax c.lowerMax →
      duty c.toConfig a < c.pwmClkHz / c.pwmTargetHz - 1 ∧ duty c.toConfig a < 2 ^ c.pwmW) ∧
    (∀ a a', a ≤ a' → duty c.toConfig a ≤ duty c.toConfig a')

/-! ### RXEND (44_frame_end.md) -/

/-- R90: the whole of RXEND. After an overflow the outcome is FrameOverflow; otherwise the bytes of `buf[0..count)` are
parsed, a failure gives its MalformedFrame and a success clamps, commits and gives Committed; `count` and `ovf` are
cleared always; nothing else changes. -/
def Obligations.RxendRunsTheWholePipeline : Prop :=
  decode 0x100#10 = .ok .rxend ∧
  (∀ s : State, s.ovf = true →
    exec .rxend s = .next { s with count := 0, ovf := false, outcomes := s.outcomes ++ [.frameOverflow] }) ∧
  (∀ s : State, s.ovf = false → s.FrameReadable →
    ∃ bytes : List Byte, bytes.length = s.count ∧ (∀ i, i < s.count → s.cell i = bytes[i]?) ∧
      (∀ r, parse s.cfg.toConfig bytes = .err r →
        exec .rxend s =
          .next { s with count := 0, ovf := false, outcomes := s.outcomes ++ [.malformedFrame r] }) ∧
      (∀ u l, parse s.cfg.toConfig bytes = .ok u l →
        exec .rxend s =
          .next { s with count := 0, ovf := false, outcomes := s.outcomes ++ [.committed],
                         pwm := pwmOfFields s.cfg.toConfig u l }))

/-- R92: a frame boundary with no bytes is MalformedFrame(NoMarker) and changes no state (the spec's own decision
D10). -/
def Obligations.EmptyFrameIsMalformed : Prop :=
  ∀ s : State, s.count = 0 → s.ovf = false →
    exec .rxend s = .next { s with outcomes := s.outcomes ++ [.malformedFrame .noMarker] }

/-- R104: an RXEND whose outcome is an error changes nothing but the frame state, which is cleared: PwmState and both
lines keep their last-good values, the echo stays, the core goes on. -/
def Obligations.FailedFrameKeepsLastGoodValues : Prop :=
  ∀ s t : State, exec .rxend s = .next t → ∃ o, t.outcomes = s.outcomes ++ [o] ∧
    t.FrameEmpty ∧ t.echo = s.echo ∧
    (o ≠ .committed →
      t.pwm = s.pwm ∧ (∀ line, t.pwmLine line = s.pwmLine line) ∧ (∀ i, t.cell i = s.cell i) ∧
      t.responses = s.responses ∧ t.cfg = s.cfg ∧ t.input = s.input ∧
      (∀ bytes : List Byte, ∃ t', execAll (sendTxns bytes) t = .next t'))

/-- Any burst from an empty frame completes with one outcome, and after a discarded one the state is what it would be had
the bytes never arrived, except that they were echoed (60_exceptions.md R107; cells of `buf` that belong to no frame are
outside every rule, R91). -/
def Obligations.DiscardedBurstLeavesOnlyItsEcho : Prop :=
  ∀ (bytes : List Byte) (s : State), s.FrameEmpty →
    ∃ t o, execAll (sendTxns bytes) s = .next t ∧ t.outcomes = s.outcomes ++ [o] ∧
      (o ≠ .committed →
        SameButStaleCells t { s with echo := s.echo ++ bytes, outcomes := s.outcomes ++ [o] })

/-- End to end: any frame of the grammar that fits the buffer, sent from an empty frame, commits on each channel the
clamp of the unbounded value of its field and that clamp's duty, and both lines show it (42_angle_clamper.md R81,
43_pwm_mapper.md R89, 41_frame_parser.md R68). -/
def Obligations.ValidBurstCommitsItsClampedFields : Prop :=
  ∀ (s : State) (markers field1 : List Byte) (sep : Byte) (field2 trailer : List Byte), s.FrameEmpty →
    ValidFrame s.cfg.toConfig markers field1 sep field2 trailer →
    (markers ++ field1 ++ [sep] ++ field2 ++ trailer).length ≤ s.cfg.bufCap →
    ∃ t, execAll (sendTxns (markers ++ field1 ++ [sep] ++ field2 ++ trailer)) s = .next t ∧
      t.outcomes = s.outcomes ++ [.committed] ∧ t.FrameEmpty ∧
      t.pwm = pwmOfFields s.cfg.toConfig (decValue field1) (decValue field2) ∧
      t.pwmLine .pwm1 = t.pwm.dutyUpper ∧ t.pwmLine .pwm0 = t.pwm.dutyLower ∧
      t.echo = s.echo ++ (markers ++ field1 ++ [sep] ++ field2 ++ trailer) ∧
      t.responses = s.responses ∧ t.cfg = s.cfg ∧ t.input = s.input

/-- The spec's worked example, at the defaults and any legal clock: the bytes of `S083,083` commit 83 and 83 and the duty
`(83 * PERIOD_TICKS) div 1000` on both channels (43_pwm_mapper.md R89, which the spec derives). -/
def Obligations.DefaultFrameS083Commits83 : Prop :=
  ∀ (clk w iu il : Nat) (s : State), s.cfg.toConfig = defaultConfig clk w iu il → s.FrameEmpty →
    ∃ t, execAll (sendTxns [0x53#8, 0x30#8, 0x38#8, 0x33#8, 0x2C#8, 0x30#8, 0x38#8, 0x33#8]) s = .next t ∧
      t.outcomes = s.outcomes ++ [.committed] ∧
      t.pwm = { valid := true, angUpper := some 83, angLower := some 83,
                dutyUpper := some (83 * (clk / 55 - 1) / 1000), dutyLower := some (83 * (clk / 55 - 1) / 1000) }

/-- Idempotence: a valid frame sent twice leaves the same PwmState after each (44_frame_end.md R96, which the spec
derives from R90, R91 and R74). -/
def Obligations.SameFrameTwiceSamePwmState : Prop :=
  ∀ (bytes : List Byte) (u l : Nat) (s : State), s.FrameEmpty → bytes.length ≤ s.cfg.bufCap →
    parse s.cfg.toConfig bytes = .ok u l →
    ∃ t₁ t₂, execAll (sendTxns bytes) s = .next t₁ ∧ execAll (sendTxns bytes) t₁ = .next t₂ ∧
      t₁.outcomes = s.outcomes ++ [.committed] ∧ t₂.outcomes = s.outcomes ++ [.committed, .committed] ∧
      t₁.pwm.valid = true ∧ t₂.pwm = t₁.pwm ∧ (∀ line, t₂.pwmLine line = t₁.pwmLine line)

/-- Mis-framing: a valid frame cut inside its second field and sent as two bursts commits the first part's value and
gives MalformedFrame(NoMarker) for the second (70_reset_and_hazards.md R123, which the spec derives). -/
def Obligations.FrameSplitInItsSecondFieldCommitsTheFirstPart : Prop :=
  ∀ (s : State) (markers field1 : List Byte) (sep : Byte) (part1 part2 : List Byte), s.FrameEmpty →
    ValidFrame s.cfg.toConfig markers field1 sep part1 [] → part2 ≠ [] → DigitRun part2 →
    (markers ++ field1 ++ [sep] ++ part1 ++ part2).length ≤ s.cfg.bufCap →
    ∃ t, execAll (sendTxns (markers ++ field1 ++ [sep] ++ part1) ++ sendTxns part2) s = .next t ∧
      t.outcomes = s.outcomes ++ [.committed, .malformedFrame .noMarker] ∧
      t.pwm = pwmOfFields s.cfg.toConfig (decValue field1) (decValue part1)

/-- R87: on commit both lines change in that step, PWM1 to the Upper duty and PWM0 to the Lower duty of the frame just
parsed. -/
def Obligations.CommitDrivesBothPwmLines : Prop :=
  ∀ s t : State, exec .rxend s = .next t → t.outcomes = s.outcomes ++ [.committed] →
    ∃ bytes u l, s.frameBytes = .ok bytes ∧ parse s.cfg.toConfig bytes = .ok u l ∧
      t.pwm = pwmOfFields s.cfg.toConfig u l ∧
      t.pwmLine .pwm1 = (pwmOfFields s.cfg.toConfig u l).dutyUpper ∧
      t.pwmLine .pwm0 = (pwmOfFields s.cfg.toConfig u l).dutyLower

/-! ### READ (45_snapshot_read.md) -/

/-- R97: READ answers Uncommitted while `valid = 0` and the four registers otherwise, and changes no state. -/
def Obligations.ReadAnswersTheSnapshot : Prop :=
  decode 0x200#10 = .ok .read ∧
  (∀ s : State, s.pwm.valid = false →
    exec .read s = .next { s with responses := s.responses ++ [.uncommitted] }) ∧
  (∀ (s : State) (au al du dl : Nat), s.pwm.valid = true → s.pwm.angUpper = some au → s.pwm.angLower = some al →
    s.pwm.dutyUpper = some du → s.pwm.dutyLower = some dl →
    exec .read s = .next { s with responses := s.responses ++ [.snapshot au al du dl] })

/-- A READ's four values come from one commit (45_snapshot_read.md R98, 10_state.md R24, both derived by the spec).
Where the invariant holds, READ completes, and once `valid = 1` it answers the four registers, which are angles in their
windows each with the duty of its own angle. After an RXEND that commits the fields u and l of its frame, and any
transactions among which there is no further commit and no RESET, READ answers the four values that commit wrote. -/
def Obligations.SnapshotComesFromOneCommit : Prop :=
  (∀ s : State, s.pwm.Inv s.cfg.toConfig → ∃ t r, exec .read s = .next t ∧ t.responses = s.responses ++ [r] ∧
    (s.pwm.valid = false → r = .uncommitted) ∧
    (s.pwm.valid = true → ∃ au al, s.pwm.angUpper = some au ∧ s.pwm.angLower = some al ∧
      s.pwm.dutyUpper = some (duty s.cfg.toConfig au) ∧ s.pwm.dutyLower = some (duty s.cfg.toConfig al) ∧
      r = .snapshot au al (duty s.cfg.toConfig au) (duty s.cfg.toConfig al) ∧
      s.cfg.upperMin ≤ au ∧ au ≤ s.cfg.upperMax ∧ s.cfg.lowerMin ≤ al ∧ al ≤ s.cfg.lowerMax)) ∧
  (∀ (s s₁ s₂ : State) (bytes : List Byte) (u l : Nat) (is : List Instr) (later : List FrameOutcome),
    s.ovf = false → s.frameBytes = .ok bytes → parse s.cfg.toConfig bytes = .ok u l →
    exec .rxend s = .next s₁ → execAll is s₁ = .next s₂ →
    .reset ∉ is → s₂.outcomes = s₁.outcomes ++ later → .committed ∉ later →
    ∃ t au al du dl, exec .read s₂ = .next t ∧ t.responses = s₂.responses ++ [.snapshot au al du dl] ∧
      pwmOfFields s.cfg.toConfig u l = ⟨true, some au, some al, some du, some dl⟩)

/-- The host sees nothing of the frame in flight: bytes received between two READs, and the first READ itself, leave the
second READ's answer what the first one's was (10_state.md R30; 45_snapshot_read.md R97; 20_memory.md R39). -/
def Obligations.ReadSeesNothingOfTheFrameInFlight : Prop :=
  (∀ (bytes : List Byte) (s t : State) (r : ReadResponse), exec .read s = .next t → t.responses = s.responses ++ [r] →
    ∃ t', execAll (.read :: bytesTxns bytes ++ [.read]) s = .next t' ∧ t'.responses = s.responses ++ [r, r]) ∧
  (∀ s s' t : State, s.pwm = s'.pwm → exec .read s = .next t →
    ∃ r t', t.responses = s.responses ++ [r] ∧ exec .read s' = .next t' ∧ t'.responses = s'.responses ++ [r])

/-- A rule that reaches an element with no value stops and supplies none (10_state.md R32; that no value is an absent one
is entry 7): READ with `valid = 1` beside a register with no value, RXEND with a cell of the frame unwritten. That RXEND
reads every cell of the frame, also one at which the parse would not look, is the model's own choice, entry 10. -/
def Obligations.NoValueIsNeverSupplied : Prop :=
  (∀ s : State, s.pwm.valid = true →
    s.pwm.angUpper = none ∨ s.pwm.angLower = none ∨ s.pwm.dutyUpper = none ∨ s.pwm.dutyLower = none →
    ∃ e, exec .read s = .fault (.noValue e)) ∧
  (∀ (s : State) (i : Nat), s.ovf = false → s.count ≤ s.cfg.bufCap → i < s.count → s.cell i = none →
    ∃ j, j ≤ i ∧ s.cell j = none ∧ exec .rxend s = .fault (.noValue (.bufCell j)))

/-! ### The whole machine -/

/-- What each transaction leaves unchanged, in every state and form (20_memory.md R39, 10_state.md R26, R31; that RESET
keeps the record of the run and the pending transactions is the model's own, entries 5 and 8). -/
def Obligations.TransactionsTouchOnlyTheirOwnElements : Prop :=
  ∀ (i : Instr) (s t : State), exec i s = .next t →
    t.cfg = s.cfg ∧ t.input = s.input ∧
    match i with
    | .rxb _ =>
      t.pwm = s.pwm ∧ t.outcomes = s.outcomes ∧ t.responses = s.responses ∧
      (∀ line, t.pwmLine line = s.pwmLine line) ∧
      (s.count < s.cfg.bufCap → t.ovf = s.ovf ∧ ∀ a, a ≠ s.count → t.cell a = s.cell a) ∧
      (¬ s.count < s.cfg.bufCap → t.count = s.count ∧ ∀ a, t.cell a = s.cell a)
    | .rxend =>
      t.echo = s.echo ∧ t.responses = s.responses ∧ (∀ a, t.cell a = s.cell a) ∧
      (t.outcomes ≠ s.outcomes ++ [.committed] → t.pwm = s.pwm)
    | .read =>
      (∀ a, t.cell a = s.cell a) ∧ t.count = s.count ∧ t.ovf = s.ovf ∧ t.pwm = s.pwm ∧ t.echo = s.echo ∧
      t.outcomes = s.outcomes ∧ (∀ line, t.pwmLine line = s.pwmLine line)
    | .reset =>
      t.echo = s.echo ∧ t.outcomes = s.outcomes ∧ t.responses = s.responses

/-- R99: no transaction of the host writes PwmState, the frame buffer, `count` or `ovf`, or runs the parser (no outcome
appears). -/
def Obligations.HostTransactionsWriteNoElement : Prop :=
  ∀ (i : Instr) (s t : State), issuer i = .host → exec i s = .next t →
    t.pwm = s.pwm ∧ (∀ a, t.cell a = s.cell a) ∧ t.count = s.count ∧ t.ovf = s.ovf ∧ t.outcomes = s.outcomes

/-- R86: PwmState and the lines change only in an RXEND whose outcome is Committed, or by RESET. -/
def Obligations.OnlyCommitAndResetWritePwmState : Prop :=
  ∀ (i : Instr) (s t : State), exec i s = .next t →
    (t.pwm ≠ s.pwm ∨ ∃ line, t.pwmLine line ≠ s.pwmLine line) →
    (i = .rxend ∧ t.outcomes = s.outcomes ++ [.committed]) ∨ i = .reset

/-- The flag `ovf` is set only by an RXB that finds the buffer full, cleared only by RXEND and RESET, and read only by
RXEND: any other transaction does the same, but for `ovf` itself, whatever `ovf` is (10_state.md R22). -/
def Obligations.OverflowFlagLife : Prop :=
  (∀ (i : Instr) (s t : State), exec i s = .next t → s.ovf = false → t.ovf = true →
    (∃ b, i = .rxb b) ∧ s.cfg.bufCap ≤ s.count) ∧
  (∀ (i : Instr) (s t : State), exec i s = .next t → s.ovf = true → t.ovf = false → i = .rxend ∨ i = .reset) ∧
  (∀ (i : Instr) (s t : State) (x : Bool), i ≠ .rxend → exec i s = .next t →
    ∃ y, exec i { s with ovf := x } = .next { t with ovf := y })

/-- R100: every RXEND has exactly one outcome; RXB, READ and RESET have none and cannot fail (READ where the invariant of
PwmState, 10_state.md R24, holds). -/
def Obligations.ExactlyOneOutcomePerRxend : Prop :=
  (∀ (b : Byte) (s : State), ∃ t, exec (.rxb b) s = .next t ∧ t.outcomes = s.outcomes) ∧
  (∀ s : State, ∃ t, exec .reset s = .next t ∧ t.outcomes = s.outcomes) ∧
  (∀ s : State, s.pwm.Inv s.cfg.toConfig → ∃ t, exec .read s = .next t ∧ t.outcomes = s.outcomes) ∧
  (∀ s : State, s.FrameReadable → ∃ t o, exec .rxend s = .next t ∧ t.outcomes = s.outcomes ++ [o])

/-- The invariant is kept by every step (10_state.md R21, R22, R24; 20_memory.md R34). -/
def Obligations.StepKeepsTheInvariant : Prop :=
  ∀ s t : State, s.Inv → step s = .next t → t.Inv

/-- Where the invariant holds a step never faults, and the only thing it refuses is a reserved word at the front of the
input ("The rules never read one", 10_state.md R32; "no fatal condition", 60_exceptions.md R105). -/
def Obligations.NoFaultWhereTheInvariantHolds : Prop :=
  ∀ s : State, s.Inv →
    (∃ t, step s = .next t) ∨
    ∃ w rest, s.input = w :: rest ∧ TxnWord.wf w = false ∧ step s = .refused (.reservedWord w)

/-- Every step keeps the frame in `buf` equal to the last bytes echoed, as long as the frame has not overflowed
(20_memory.md R37). -/
def Obligations.StepKeepsTheFrameEqualToTheLastEcho : Prop :=
  ∀ s t : State, s.Inv → s.FrameIsLastEcho → step s = .next t → t.FrameIsLastEcho

/-- Cells at index `count` or above are never read: two states that differ there only step alike, to states that again
differ there only (10_state.md R20, 44_frame_end.md R91). -/
def Obligations.StaleCellsAreNeverRead : Prop :=
  ∀ s s' : State, SameButStaleCells s s' →
    (∀ t, step s = .next t → ∃ t', step s' = .next t' ∧ SameButStaleCells t t') ∧
    (∀ f, step s = .fault f → step s' = .fault f) ∧
    (∀ r, step s = .refused r → step s' = .refused r)
end

