-- ==== Sys2Proof/Laws/Config.lean ====
section
/-! SUPPORT. What a legal configuration guarantees. -/

namespace Sys2Proof

/-- The conditions of 00_scope.md R10, of a configuration in which none fails. -/
theorem LegalConfig.facts (c : LegalConfig) :
    1 ≤ c.bufCap ∧ Machine.isDigit c.marker = false ∧
    (c.upperMin ≤ c.upperMax ∧ c.upperMax ≤ c.fieldMax) ∧
    (c.lowerMin ≤ c.lowerMax ∧ c.lowerMax ≤ c.fieldMax) ∧
    c.upperMax < c.dutyDiv ∧ c.lowerMax < c.dutyDiv ∧ 1 ≤ c.pwmTargetHz ∧
    2 ≤ c.pwmClkHz / c.pwmTargetHz ∧ Machine.periodTicks c.toConfig < 2 ^ c.pwmW := by
  have hl := c.legal
  unfold Config.defect? at hl
  repeat' split at hl
  all_goals first
    | (cases hl; done)
    | (refine ⟨?_, ?_, ?_, ?_, ?_, ?_, ?_, ?_, ?_⟩ <;> simp_all <;> omega)

end Sys2Proof
end

