-- ==== Sys2Proof/Laws/Memory.lean ====
section
/-! SUPPORT. The laws of the frame buffer as memory: read after write, and the canonical form. -/

namespace Sys2Proof.Machine

theorem Memory.read_write_same (m : List Host.Cell) (i : Nat) (v : Byte) :
    Memory.read (Memory.write m i v) i = some v := by
  induction m with
  | nil => simp [Memory.write, Memory.read]
  | cons x m ih =>
    obtain ⟨a, b⟩ := x
    simp only [Memory.write]
    split
    · simp [Memory.read]
    · split
      · simp [Memory.read]
      · rename_i h1 h2
        simp [Memory.read, Ne.symm h2, ih]

theorem Memory.read_write_other (m : List Host.Cell) (i : Nat) (v : Byte) {j : Nat} (h : j ≠ i) :
    Memory.read (Memory.write m i v) j = Memory.read m j := by
  induction m with
  | nil => simp [Memory.write, Memory.read, Ne.symm h]
  | cons x m ih =>
    obtain ⟨a, b⟩ := x
    simp only [Memory.write]
    split
    · simp [Memory.read, Ne.symm h]
    · split
      · rename_i h1 h2
        subst h2
        simp [Memory.read, Ne.symm h]
      · simp only [Memory.read, ih]

theorem Memory.mem_write {m : List Host.Cell} {i : Nat} {v : Byte} {x : Host.Cell}
    (h : x ∈ Memory.write m i v) : x = (i, v) ∨ x ∈ m := by
  induction m with
  | nil => simpa [Memory.write] using h
  | cons y m ih =>
    obtain ⟨a, b⟩ := y
    simp only [Memory.write] at h
    split at h
    · simpa using h
    · split at h
      · rcases List.mem_cons.1 h with h | h
        · exact .inl h
        · exact .inr (List.mem_cons_of_mem _ h)
      · rcases List.mem_cons.1 h with h | h
        · exact .inr (h ▸ List.mem_cons_self)
        · exact (ih h).imp id (List.mem_cons_of_mem _)

/-- A write keeps the canonical form. -/
theorem Memory.write_wf {m : List Host.Cell} (hm : Memory.wf m) (i : Nat) (v : Byte) :
    Memory.wf (Memory.write m i v) := by
  induction m with
  | nil => simp [Memory.write, Memory.wf]
  | cons y m ih =>
    obtain ⟨a, b⟩ := y
    obtain ⟨hlt, hrest⟩ := List.pairwise_cons.1 hm
    simp only [Memory.write]
    split
    · rename_i h
      refine List.pairwise_cons.2 ⟨fun x hx => ?_, hm⟩
      rcases List.mem_cons.1 hx with rfl | hx
      · exact h
      · exact lt_trans h (hlt x hx)
    · split
      · rename_i h
        subst h
        exact List.pairwise_cons.2 ⟨hlt, hrest⟩
      · refine List.pairwise_cons.2 ⟨fun x hx => ?_, ih hrest⟩
        rcases Memory.mem_write hx with rfl | hx
        · simp only; omega
        · exact hlt x hx

/-- RESET's buffer is canonical. -/
theorem Memory.nil_wf : Memory.wf [] := List.Pairwise.nil

theorem Memory.read_eq_none {m : List Host.Cell} {i : Nat} (h : ∀ x ∈ m, x.1 ≠ i) : Memory.read m i = none := by
  induction m with
  | nil => rfl
  | cons y m ih =>
    simp [Memory.read, h y List.mem_cons_self, ih fun x hx => h x (List.mem_cons_of_mem _ hx)]

/-- Canonical buffers that read alike everywhere are the same data. -/
theorem Memory.ext {m m' : List Host.Cell} (hm : Memory.wf m) (hm' : Memory.wf m')
    (h : ∀ i, Memory.read m i = Memory.read m' i) : m = m' := by
  induction m generalizing m' with
  | nil =>
    cases m' with
    | nil => rfl
    | cons y m' => simpa [Memory.read] using h y.1
  | cons x m ih =>
    obtain ⟨a, b⟩ := x
    obtain ⟨hlt, hrest⟩ := List.pairwise_cons.1 hm
    cases m' with
    | nil => simpa [Memory.read] using h a
    | cons y m' =>
      obtain ⟨a', b'⟩ := y
      obtain ⟨hlt', hrest'⟩ := List.pairwise_cons.1 hm'
      have hle : ∀ z ∈ m, a < z.1 := hlt
      have hle' : ∀ z ∈ m', a' < z.1 := hlt'
      have haa : a = a' := by
        rcases lt_trichotomy a a' with hl | he | hl
        · have := h a
          rw [Memory.read, if_pos rfl, Memory.read_eq_none] at this
          · cases this
          · intro z hz
            rcases List.mem_cons.1 hz with rfl | hz
            · exact (ne_of_lt hl).symm
            · exact (ne_of_lt (hl.trans (hle' z hz))).symm
        · exact he
        · have := h a'
          rw [Memory.read_eq_none, Memory.read, if_pos rfl] at this
          · cases this
          · intro z hz
            rcases List.mem_cons.1 hz with rfl | hz
            · exact (ne_of_lt hl).symm
            · exact (ne_of_lt (hl.trans (hle z hz))).symm
      subst haa
      have hb : b = b' := by simpa [Memory.read] using h a
      subst hb
      refine congrArg _ (ih hrest hrest' fun i => ?_)
      by_cases hi : a = i
      · subst hi
        rw [Memory.read_eq_none fun z hz => (ne_of_lt (hle z hz)).symm,
          Memory.read_eq_none fun z hz => (ne_of_lt (hle' z hz)).symm]
      · simpa [Memory.read, hi] using h i

end Sys2Proof.Machine
end

