-- ==== Sys2Proof/Laws/State.lean ====
section
/-! SUPPORT. One lemma per field per update of State, so that no proof unfolds a record update. -/

namespace Sys2Proof.Machine

variable (s : State)

/-! ### emitEcho -/

@[simp] theorem State.emitEcho_cfg (b : Byte) : (s.emitEcho b).cfg = s.cfg := rfl
@[simp] theorem State.emitEcho_buf (b : Byte) : (s.emitEcho b).buf = s.buf := rfl
@[simp] theorem State.emitEcho_count (b : Byte) : (s.emitEcho b).count = s.count := rfl
@[simp] theorem State.emitEcho_ovf (b : Byte) : (s.emitEcho b).ovf = s.ovf := rfl
@[simp] theorem State.emitEcho_pwm (b : Byte) : (s.emitEcho b).pwm = s.pwm := rfl
@[simp] theorem State.emitEcho_echo (b : Byte) : (s.emitEcho b).echo = s.echo ++ [b] := rfl
@[simp] theorem State.emitEcho_outcomes (b : Byte) : (s.emitEcho b).outcomes = s.outcomes := rfl
@[simp] theorem State.emitEcho_responses (b : Byte) : (s.emitEcho b).responses = s.responses := rfl
@[simp] theorem State.emitEcho_input (b : Byte) : (s.emitEcho b).input = s.input := rfl

/-! ### appendByte -/

@[simp] theorem State.appendByte_cfg (b : Byte) : (s.appendByte b).cfg = s.cfg := rfl
@[simp] theorem State.appendByte_buf (b : Byte) : (s.appendByte b).buf = Memory.write s.buf s.count b := rfl
@[simp] theorem State.appendByte_count (b : Byte) : (s.appendByte b).count = s.count + 1 := rfl
@[simp] theorem State.appendByte_ovf (b : Byte) : (s.appendByte b).ovf = s.ovf := rfl
@[simp] theorem State.appendByte_pwm (b : Byte) : (s.appendByte b).pwm = s.pwm := rfl
@[simp] theorem State.appendByte_echo (b : Byte) : (s.appendByte b).echo = s.echo := rfl
@[simp] theorem State.appendByte_outcomes (b : Byte) : (s.appendByte b).outcomes = s.outcomes := rfl
@[simp] theorem State.appendByte_responses (b : Byte) : (s.appendByte b).responses = s.responses := rfl
@[simp] theorem State.appendByte_input (b : Byte) : (s.appendByte b).input = s.input := rfl

/-! ### commit -/

@[simp] theorem State.commit_cfg (u l : Nat) : (s.commit u l).cfg = s.cfg := rfl
@[simp] theorem State.commit_buf (u l : Nat) : (s.commit u l).buf = s.buf := rfl
@[simp] theorem State.commit_count (u l : Nat) : (s.commit u l).count = s.count := rfl
@[simp] theorem State.commit_ovf (u l : Nat) : (s.commit u l).ovf = s.ovf := rfl
@[simp] theorem State.commit_pwm (u l : Nat) : (s.commit u l).pwm = PwmState.committed s.cfg.toConfig u l := rfl
@[simp] theorem State.commit_echo (u l : Nat) : (s.commit u l).echo = s.echo := rfl
@[simp] theorem State.commit_outcomes (u l : Nat) : (s.commit u l).outcomes = s.outcomes := rfl
@[simp] theorem State.commit_responses (u l : Nat) : (s.commit u l).responses = s.responses := rfl
@[simp] theorem State.commit_input (u l : Nat) : (s.commit u l).input = s.input := rfl

/-! ### clearFrame -/

@[simp] theorem State.clearFrame_cfg : s.clearFrame.cfg = s.cfg := rfl
@[simp] theorem State.clearFrame_buf : s.clearFrame.buf = s.buf := rfl
@[simp] theorem State.clearFrame_count : s.clearFrame.count = 0 := rfl
@[simp] theorem State.clearFrame_ovf : s.clearFrame.ovf = false := rfl
@[simp] theorem State.clearFrame_pwm : s.clearFrame.pwm = s.pwm := rfl
@[simp] theorem State.clearFrame_echo : s.clearFrame.echo = s.echo := rfl
@[simp] theorem State.clearFrame_outcomes : s.clearFrame.outcomes = s.outcomes := rfl
@[simp] theorem State.clearFrame_responses : s.clearFrame.responses = s.responses := rfl
@[simp] theorem State.clearFrame_input : s.clearFrame.input = s.input := rfl

/-! ### finish -/

@[simp] theorem State.finish_cfg (o : FrameOutcome) : (s.finish o).cfg = s.cfg := rfl
@[simp] theorem State.finish_buf (o : FrameOutcome) : (s.finish o).buf = s.buf := rfl
@[simp] theorem State.finish_count (o : FrameOutcome) : (s.finish o).count = s.count := rfl
@[simp] theorem State.finish_ovf (o : FrameOutcome) : (s.finish o).ovf = s.ovf := rfl
@[simp] theorem State.finish_pwm (o : FrameOutcome) : (s.finish o).pwm = s.pwm := rfl
@[simp] theorem State.finish_echo (o : FrameOutcome) : (s.finish o).echo = s.echo := rfl
@[simp] theorem State.finish_outcomes (o : FrameOutcome) : (s.finish o).outcomes = s.outcomes ++ [o] := rfl
@[simp] theorem State.finish_responses (o : FrameOutcome) : (s.finish o).responses = s.responses := rfl
@[simp] theorem State.finish_input (o : FrameOutcome) : (s.finish o).input = s.input := rfl

/-! ### discardFrame -/

@[simp] theorem State.discardFrame_cfg (o : FrameOutcome) : (s.discardFrame o).cfg = s.cfg := rfl
@[simp] theorem State.discardFrame_buf (o : FrameOutcome) : (s.discardFrame o).buf = s.buf := rfl
@[simp] theorem State.discardFrame_count (o : FrameOutcome) : (s.discardFrame o).count = 0 := rfl
@[simp] theorem State.discardFrame_ovf (o : FrameOutcome) : (s.discardFrame o).ovf = false := rfl
@[simp] theorem State.discardFrame_pwm (o : FrameOutcome) : (s.discardFrame o).pwm = s.pwm := rfl
@[simp] theorem State.discardFrame_echo (o : FrameOutcome) : (s.discardFrame o).echo = s.echo := rfl
@[simp] theorem State.discardFrame_outcomes (o : FrameOutcome) : (s.discardFrame o).outcomes =
    s.outcomes ++ [o] := rfl
@[simp] theorem State.discardFrame_responses (o : FrameOutcome) : (s.discardFrame o).responses = s.responses := rfl
@[simp] theorem State.discardFrame_input (o : FrameOutcome) : (s.discardFrame o).input = s.input := rfl

/-! ### commitFrame -/

@[simp] theorem State.commitFrame_cfg (u l : Nat) : (s.commitFrame u l).cfg = s.cfg := rfl
@[simp] theorem State.commitFrame_buf (u l : Nat) : (s.commitFrame u l).buf = s.buf := rfl
@[simp] theorem State.commitFrame_count (u l : Nat) : (s.commitFrame u l).count = 0 := rfl
@[simp] theorem State.commitFrame_ovf (u l : Nat) : (s.commitFrame u l).ovf = false := rfl
@[simp] theorem State.commitFrame_pwm (u l : Nat) : (s.commitFrame u l).pwm =
    PwmState.committed s.cfg.toConfig (clampUpper s.cfg.toConfig u) (clampLower s.cfg.toConfig l) := rfl
@[simp] theorem State.commitFrame_echo (u l : Nat) : (s.commitFrame u l).echo = s.echo := rfl
@[simp] theorem State.commitFrame_outcomes (u l : Nat) : (s.commitFrame u l).outcomes =
    s.outcomes ++ [.committed] := rfl
@[simp] theorem State.commitFrame_responses (u l : Nat) : (s.commitFrame u l).responses = s.responses := rfl
@[simp] theorem State.commitFrame_input (u l : Nat) : (s.commitFrame u l).input = s.input := rfl

/-! ### respond -/

@[simp] theorem State.respond_cfg (r : ReadResponse) : (s.respond r).cfg = s.cfg := rfl
@[simp] theorem State.respond_buf (r : ReadResponse) : (s.respond r).buf = s.buf := rfl
@[simp] theorem State.respond_count (r : ReadResponse) : (s.respond r).count = s.count := rfl
@[simp] theorem State.respond_ovf (r : ReadResponse) : (s.respond r).ovf = s.ovf := rfl
@[simp] theorem State.respond_pwm (r : ReadResponse) : (s.respond r).pwm = s.pwm := rfl
@[simp] theorem State.respond_echo (r : ReadResponse) : (s.respond r).echo = s.echo := rfl
@[simp] theorem State.respond_outcomes (r : ReadResponse) : (s.respond r).outcomes = s.outcomes := rfl
@[simp] theorem State.respond_responses (r : ReadResponse) : (s.respond r).responses = s.responses ++ [r] := rfl
@[simp] theorem State.respond_input (r : ReadResponse) : (s.respond r).input = s.input := rfl

/-! ### clearAll -/

@[simp] theorem State.clearAll_cfg : s.clearAll.cfg = s.cfg := rfl
@[simp] theorem State.clearAll_buf : s.clearAll.buf = [] := rfl
@[simp] theorem State.clearAll_count : s.clearAll.count = 0 := rfl
@[simp] theorem State.clearAll_ovf : s.clearAll.ovf = false := rfl
@[simp] theorem State.clearAll_pwm : s.clearAll.pwm = PwmState.reset := rfl
@[simp] theorem State.clearAll_echo : s.clearAll.echo = s.echo := rfl
@[simp] theorem State.clearAll_outcomes : s.clearAll.outcomes = s.outcomes := rfl
@[simp] theorem State.clearAll_responses : s.clearAll.responses = s.responses := rfl
@[simp] theorem State.clearAll_input : s.clearAll.input = s.input := rfl

/-! ### takeWord -/

@[simp] theorem State.takeWord_cfg : s.takeWord.cfg = s.cfg := rfl
@[simp] theorem State.takeWord_buf : s.takeWord.buf = s.buf := rfl
@[simp] theorem State.takeWord_count : s.takeWord.count = s.count := rfl
@[simp] theorem State.takeWord_ovf : s.takeWord.ovf = s.ovf := rfl
@[simp] theorem State.takeWord_pwm : s.takeWord.pwm = s.pwm := rfl
@[simp] theorem State.takeWord_echo : s.takeWord.echo = s.echo := rfl
@[simp] theorem State.takeWord_outcomes : s.takeWord.outcomes = s.outcomes := rfl
@[simp] theorem State.takeWord_responses : s.takeWord.responses = s.responses := rfl
@[simp] theorem State.takeWord_input : s.takeWord.input = s.input.tail := rfl

/-! ### presentWord -/

@[simp] theorem State.presentWord_cfg (w : TxnWord) : (s.presentWord w).cfg = s.cfg := rfl
@[simp] theorem State.presentWord_buf (w : TxnWord) : (s.presentWord w).buf = s.buf := rfl
@[simp] theorem State.presentWord_count (w : TxnWord) : (s.presentWord w).count = s.count := rfl
@[simp] theorem State.presentWord_ovf (w : TxnWord) : (s.presentWord w).ovf = s.ovf := rfl
@[simp] theorem State.presentWord_pwm (w : TxnWord) : (s.presentWord w).pwm = s.pwm := rfl
@[simp] theorem State.presentWord_echo (w : TxnWord) : (s.presentWord w).echo = s.echo := rfl
@[simp] theorem State.presentWord_outcomes (w : TxnWord) : (s.presentWord w).outcomes = s.outcomes := rfl
@[simp] theorem State.presentWord_responses (w : TxnWord) : (s.presentWord w).responses = s.responses := rfl
@[simp] theorem State.presentWord_input (w : TxnWord) : (s.presentWord w).input = w :: s.input := rfl

/-! ### sinkByte: the two cases of RXB (40_byte_sink.md R59, R60) -/

@[simp] theorem State.sinkByte_cfg (b : Byte) : (s.sinkByte b).cfg = s.cfg := by
  unfold State.sinkByte; split <;> rfl
@[simp] theorem State.sinkByte_pwm (b : Byte) : (s.sinkByte b).pwm = s.pwm := by
  unfold State.sinkByte; split <;> rfl
@[simp] theorem State.sinkByte_echo (b : Byte) : (s.sinkByte b).echo = s.echo := by
  unfold State.sinkByte; split <;> rfl
@[simp] theorem State.sinkByte_outcomes (b : Byte) : (s.sinkByte b).outcomes = s.outcomes := by
  unfold State.sinkByte; split <;> rfl
@[simp] theorem State.sinkByte_responses (b : Byte) : (s.sinkByte b).responses = s.responses := by
  unfold State.sinkByte; split <;> rfl
@[simp] theorem State.sinkByte_input (b : Byte) : (s.sinkByte b).input = s.input := by
  unfold State.sinkByte; split <;> rfl

/-- Store case: RXB appends and keeps `ovf`. -/
theorem State.sinkByte_of_lt (b : Byte) (h : s.count < s.cfg.bufCap) : s.sinkByte b = s.appendByte b := by
  simp [State.sinkByte, ovfAfterByte, h, State.appendByte]

/-- Full case: RXB sets `ovf` and stores nothing. -/
theorem State.sinkByte_of_not_lt (b : Byte) (h : ¬ s.count < s.cfg.bufCap) :
    s.sinkByte b = { s with ovf := true } := by
  simp [State.sinkByte, ovfAfterByte, h]

/-! ### Views of the state -/

@[simp] theorem State.cell_mk (c : LegalConfig) (m : List Host.Cell) (n : Nat) (o : Bool) (p : PwmState)
    (e : List Byte) (os : List FrameOutcome) (rs : List ReadResponse) (i : List TxnWord) (a : Nat) :
    (State.mk c m n o p e os rs i).cell a = Memory.read m a := rfl

@[simp] theorem State.cell_clearAll (a : Nat) : s.clearAll.cell a = none := rfl

/-- The PWM lines depend on PwmState and the configuration only (10_state.md R25). -/
theorem State.pwmLine_congr {s t : State} (hp : t.pwm = s.pwm) (hc : t.cfg = s.cfg) (o : PwmOutput) :
    t.pwmLine o = s.pwmLine o := by
  simp [State.pwmLine, State.channelLine, hp, hc]

@[simp] theorem State.withFetchWord_eq (nbits w : Nat) :
    s.withFetchWord nbits w = s.presentWord (BitVec.ofNat 10 w) := rfl

end Sys2Proof.Machine
end

