-- ==== Sys2Proof/Laws/Ops.lean ====
section
/-! SUPPORT. What each shared operation over the buffer and PwmState can do, said once. -/

namespace Sys2Proof.Machine

/-- A cell of `buf` is read exactly where the index exists and holds a byte. -/
theorem State.readCell_eq_ok_iff {s : State} {i : Nat} {b : Byte} :
    s.readCell i = .ok b ↔ i < s.cfg.bufCap ∧ s.cell i = some b := by
  unfold State.readCell
  split
  · rename_i h
    split <;> rename_i h' <;> simp [h, h']
  · rename_i h
    simp [h]

/-- Why the read of a cell stops (10_state.md R32, 20_memory.md R34). -/
theorem State.readCell_eq_error_iff {s : State} {i : Nat} {f : Fault} :
    s.readCell i = .error f ↔
      (i < s.cfg.bufCap ∧ s.cell i = none ∧ f = .noValue (.bufCell i)) ∨
      (¬ i < s.cfg.bufCap ∧ f = .outsideBuffer i) := by
  unfold State.readCell
  split
  · rename_i h
    split <;> rename_i h' <;> simp [h, h', eq_comm]
  · rename_i h
    simp [h, eq_comm]

/-- Reading depends on the configuration and the cells read only. -/
theorem State.readBytes_congr {s t : State} (hc : s.cfg = t.cfg) :
    ∀ {n i : Nat}, (∀ j, i ≤ j → j < i + n → s.cell j = t.cell j) → s.readBytes n i = t.readBytes n i
  | 0, _, _ => rfl
  | n + 1, i, h => by
    have hi : s.readCell i = t.readCell i := by
      simp [State.readCell, hc, h i (Nat.le_refl _) (by omega)]
    have ih := State.readBytes_congr hc (n := n) (i := i + 1) fun j h1 h2 => h j (by omega) (by omega)
    simp only [State.readBytes, hi, ih]

/-- The bytes read are those of the cells, in index order. -/
theorem State.readBytes_eq_ok {s : State} :
    ∀ {n i : Nat} {bs : List Byte}, s.readBytes n i = .ok bs →
      bs.length = n ∧ ∀ j, j < n → i + j < s.cfg.bufCap ∧ s.cell (i + j) = bs[j]?
  | 0, _, bs, h => by
    simp only [State.readBytes, Except.ok.injEq] at h
    subst h
    simp
  | n + 1, i, bs, h => by
    simp only [State.readBytes] at h
    split at h
    · cases h
    · rename_i b hb
      split at h
      · cases h
      · rename_i bs' hbs
        simp only [Except.ok.injEq] at h
        subst h
        obtain ⟨hlen, hcells⟩ := State.readBytes_eq_ok hbs
        obtain ⟨hlt, hcell⟩ := State.readCell_eq_ok_iff.1 hb
        refine ⟨by simp [hlen], fun j hj => ?_⟩
        cases j with
        | zero => exact ⟨hlt, by simpa using hcell⟩
        | succ j =>
          obtain ⟨h1, h2⟩ := hcells j (by omega)
          have he : i + (j + 1) = i + 1 + j := by omega
          exact ⟨by omega, by rw [he, h2]; simp⟩

/-- Cells that exist and hold bytes can be read. -/
theorem State.readBytes_ok {s : State} :
    ∀ {n i : Nat}, i + n ≤ s.cfg.bufCap → (∀ j, j < i + n → ∃ b, s.cell j = some b) →
      ∃ bs, s.readBytes n i = .ok bs
  | 0, _, _, _ => ⟨[], rfl⟩
  | n + 1, i, hle, h => by
    obtain ⟨b, hb⟩ := h i (by omega)
    obtain ⟨bs, hbs⟩ := State.readBytes_ok (s := s) (n := n) (i := i + 1) (by omega) fun j hj => h j (by omega)
    exact ⟨b :: bs, by simp [State.readBytes, State.readCell_eq_ok_iff.2 ⟨by omega, hb⟩, hbs]⟩

/-- What stops a read is a cell among those read. -/
theorem State.readBytes_eq_error {s : State} {f : Fault} :
    ∀ {n i : Nat}, s.readBytes n i = .error f → ∃ j, i ≤ j ∧ j < i + n ∧ s.readCell j = .error f
  | 0, _, h => by cases h
  | n + 1, i, h => by
    simp only [State.readBytes] at h
    split at h
    · rename_i f' hf
      cases h
      exact ⟨i, Nat.le_refl _, by omega, hf⟩
    · split at h
      · rename_i f' hf
        cases h
        obtain ⟨j, h1, h2, h3⟩ := State.readBytes_eq_error hf
        exact ⟨j, by omega, by omega, h3⟩
      · cases h

theorem State.readBytes_snoc {s : State} {n i : Nat} {bs : List Byte} {b : Byte}
    (h : s.readBytes n i = .ok bs) (hb : s.readCell (i + n) = .ok b) : s.readBytes (n + 1) i = .ok (bs ++ [b]) := by
  induction n generalizing i bs with
  | zero =>
    simp only [State.readBytes, Except.ok.injEq] at h
    subst h
    simp only [Nat.add_zero] at hb
    simp [State.readBytes, hb]
  | succ n ih =>
    rw [State.readBytes] at h
    split at h
    · cases h
    · rename_i b' hb'
      split at h
      · cases h
      · rename_i bs' hbs
        cases h
        have he : i + 1 + n = i + (n + 1) := by omega
        have := ih hbs (by rw [he]; exact hb)
        rw [State.readBytes, hb']
        simp [this]

/-- The current frame's bytes, cell by cell (10_state.md R20). -/
theorem State.frameBytes_eq_ok {s : State} {bs : List Byte} (h : s.frameBytes = .ok bs) :
    bs.length = s.count ∧ s.FrameReadable ∧ ∀ i, i < s.count → s.cell i = bs[i]? := by
  obtain ⟨hlen, hc⟩ := State.readBytes_eq_ok h
  simp only [Nat.zero_add] at hc
  refine ⟨hlen, ⟨?_, fun i hi => ?_⟩, fun i hi => (hc i hi).2⟩
  · rcases Nat.eq_zero_or_pos s.count with h0 | h0
    · omega
    · have := (hc (s.count - 1) (by omega)).1
      omega
  · have := (hc i hi).2
    rw [List.getElem?_eq_getElem (by omega)] at this
    exact ⟨_, this⟩

/-- A readable frame is read. -/
theorem State.frameBytes_of_readable {s : State} (h : s.FrameReadable) : ∃ bs, s.frameBytes = .ok bs :=
  State.readBytes_ok (by simpa using h.1) (by simpa using h.2)

/-- The frame's bytes depend on `count`, the configuration and the frame's cells only. -/
theorem State.frameBytes_congr {s t : State} (hc : s.cfg = t.cfg) (hn : s.count = t.count)
    (h : ∀ i, i < s.count → s.cell i = t.cell i) : s.frameBytes = t.frameBytes := by
  unfold State.frameBytes
  rw [← hn]
  exact State.readBytes_congr hc fun j _ hj => h j (by omega)

@[simp] theorem State.frameBytes_emitEcho (s : State) (b : Byte) : (s.emitEcho b).frameBytes = s.frameBytes :=
  State.frameBytes_congr rfl rfl fun _ _ => rfl

@[simp] theorem State.frameBytes_respond (s : State) (r : ReadResponse) : (s.respond r).frameBytes = s.frameBytes :=
  State.frameBytes_congr rfl rfl fun _ _ => rfl

@[simp] theorem State.frameBytes_withInput (s : State) (ws : List TxnWord) :
    State.frameBytes { s with input := ws } = s.frameBytes :=
  State.frameBytes_congr rfl rfl fun _ _ => rfl

/-- An empty frame has no bytes. -/
theorem State.frameBytes_of_empty {s : State} (h : s.count = 0) : s.frameBytes = .ok [] := by
  simp [State.frameBytes, h, State.readBytes]

theorem State.cell_appendByte_same (s : State) (b : Byte) : (s.appendByte b).cell s.count = some b :=
  Memory.read_write_same _ _ _

theorem State.cell_appendByte_other (s : State) (b : Byte) {i : Nat} (h : i ≠ s.count) :
    (s.appendByte b).cell i = s.cell i :=
  Memory.read_write_other _ _ _ h

/-- Appending a byte extends the frame by it (40_byte_sink.md R59). -/
theorem State.frameBytes_appendByte {s : State} {bs : List Byte} (b : Byte) (hlt : s.count < s.cfg.bufCap)
    (h : s.frameBytes = .ok bs) : (s.appendByte b).frameBytes = .ok (bs ++ [b]) := by
  refine State.readBytes_snoc (n := s.count) (i := 0) ?_ ?_
  · rw [← h]
    exact (State.readBytes_congr (s := s) (t := s.appendByte b) rfl fun j _ hj =>
      (State.cell_appendByte_other s b (by omega)).symm).symm
  · rw [State.readCell_eq_ok_iff, Nat.zero_add]
    exact ⟨hlt, State.cell_appendByte_same s b⟩

/-- READ's answer while nothing is committed (45_snapshot_read.md R97). -/
theorem PwmState.answer_of_not_valid {p : PwmState} (h : p.valid = false) : p.answer = .ok .uncommitted := by
  simp [PwmState.answer, h]

/-- READ's answer once a frame is committed (45_snapshot_read.md R97). -/
theorem PwmState.answer_of_valid {p : PwmState} {au al du dl : Nat} (h : p.valid = true) (h1 : p.angUpper = some au)
    (h2 : p.angLower = some al) (h3 : p.dutyUpper = some du) (h4 : p.dutyLower = some dl) :
    p.answer = .ok (.snapshot au al du dl) := by
  simp [PwmState.answer, h, h1, h2, h3, h4]

/-- The two ways READ answers. -/
theorem PwmState.answer_eq_ok {p : PwmState} {r : ReadResponse} (h : p.answer = .ok r) :
    (p.valid = false ∧ r = .uncommitted) ∨
    (p.valid = true ∧ ∃ au al du dl, p.angUpper = some au ∧ p.angLower = some al ∧ p.dutyUpper = some du ∧
      p.dutyLower = some dl ∧ r = .snapshot au al du dl) := by
  unfold PwmState.answer at h
  split at h
  · rename_i hv
    cases h
    exact .inl ⟨hv, rfl⟩
  · rename_i hv
    split at h <;> cases h
    rename_i h1 h2 h3 h4
    exact .inr ⟨by simpa using hv, _, _, _, _, h1, h2, h3, h4, rfl⟩

/-- A commit establishes the invariant of PwmState, for angles in their windows (10_state.md R24). -/
theorem PwmState.committed_inv {c : Config} {u l : Nat} (hu : c.upperMin ≤ u ∧ u ≤ c.upperMax)
    (hl : c.lowerMin ≤ l ∧ l ≤ c.lowerMax) : (PwmState.committed c u l).Inv c where
  committed _ := ⟨u, l, rfl, hu.1, hu.2, rfl, hl.1, hl.2, rfl, rfl⟩
  uncommitted h := by cases h

/-- Reset establishes the invariant of PwmState. -/
theorem PwmState.reset_inv (c : Config) : PwmState.reset.Inv c where
  committed h := by cases h
  uncommitted _ := ⟨rfl, rfl, rfl, rfl⟩

end Sys2Proof.Machine
end

