-- ==== Sys2Proof/Laws/Exec.lean ====
section
/-! SUPPORT. What each transaction and a step can do, said once. -/

namespace Sys2Proof.Machine

/-- RXB always completes (40_byte_sink.md R58). -/
theorem exec_rxb (b : Byte) (s : State) : exec (.rxb b) s = .next ((s.emitEcho b).sinkByte b) := rfl

/-- RESET always completes (70_reset_and_hazards.md R118). -/
theorem exec_reset (s : State) : exec .reset s = .next s.clearAll := rfl

/-- RXEND after an overflow (60_exceptions.md R106). -/
theorem exec_rxend_of_ovf {s : State} (h : s.ovf = true) :
    exec .rxend s = .next (s.discardFrame .frameOverflow) := by
  simp [exec, execRxend, h]

/-- RXEND of a malformed frame (60_exceptions.md R102). -/
theorem exec_rxend_of_err {s : State} {bs : List Byte} {r : MalformedReason} (h : s.ovf = false)
    (hb : s.frameBytes = .ok bs) (hp : parse s.cfg.toConfig bs = .err r) :
    exec .rxend s = .next (s.discardFrame (.malformedFrame r)) := by
  simp [exec, execRxend, h, hb, hp]

/-- RXEND of a valid frame (44_frame_end.md R90). -/
theorem exec_rxend_of_ok {s : State} {bs : List Byte} {u l : Nat} (h : s.ovf = false)
    (hb : s.frameBytes = .ok bs) (hp : parse s.cfg.toConfig bs = .ok u l) :
    exec .rxend s = .next (s.commitFrame u l) := by
  simp [exec, execRxend, h, hb, hp]

/-- The three ways an RXEND answers a next state. -/
theorem exec_rxend_cases {s t : State} (h : exec .rxend s = .next t) :
    (s.ovf = true ∧ t = s.discardFrame .frameOverflow) ∨
    (s.ovf = false ∧ ∃ bs r, s.frameBytes = .ok bs ∧ parse s.cfg.toConfig bs = .err r ∧
      t = s.discardFrame (.malformedFrame r)) ∨
    (s.ovf = false ∧ ∃ bs u l, s.frameBytes = .ok bs ∧ parse s.cfg.toConfig bs = .ok u l ∧
      t = s.commitFrame u l) := by
  simp only [exec, execRxend] at h
  split at h
  · cases h
    exact .inl ⟨‹_›, rfl⟩
  · rename_i ho
    have ho : s.ovf = false := by simpa using ho
    split at h
    · cases h
    · rename_i bs hb
      split at h
      · rename_i r hp
        cases h
        exact .inr (.inl ⟨ho, bs, r, hb, hp, rfl⟩)
      · rename_i u l hp
        cases h
        exact .inr (.inr ⟨ho, bs, u, l, hb, hp, rfl⟩)

/-- READ appends its answer and does nothing else (45_snapshot_read.md R97). -/
theorem exec_read_cases {s t : State} (h : exec .read s = .next t) : ∃ r, s.pwm.answer = .ok r ∧ t = s.respond r := by
  simp only [exec, execRead] at h
  split at h
  · cases h
  · rename_i r hr
    cases h
    exact ⟨r, hr, rfl⟩

/-- The fault of an RXEND is that of reading the frame; no other transaction but READ faults. -/
theorem exec_eq_fault {i : Instr} {s : State} {f : Fault} (h : exec i s = .fault f) :
    (i = .rxend ∧ s.ovf = false ∧ s.frameBytes = .error f) ∨ (i = .read ∧ s.pwm.answer = .error f) := by
  cases i with
  | rxb b => cases h
  | reset => cases h
  | rxend =>
    simp only [exec, execRxend] at h
    split at h
    · cases h
    · rename_i ho
      split at h
      · rename_i g hg
        cases h
        exact .inl ⟨rfl, by simpa using ho, hg⟩
      · split at h <;> cases h
  | read =>
    simp only [exec, execRead] at h
    split at h
    · rename_i g hg
      cases h
      exact .inr ⟨rfl, hg⟩
    · cases h

/-- No transaction is refused. -/
theorem exec_ne_refused (i : Instr) (s : State) (r : Refusal) : exec i s ≠ .refused r := by
  intro h
  cases i with
  | rxb b => cases h
  | reset => cases h
  | rxend =>
    simp only [exec, execRxend] at h
    split at h
    · cases h
    · split at h
      · cases h
      · split at h <;> cases h
  | read =>
    simp only [exec, execRead] at h
    split at h <;> cases h

/-- What a step that answers a next state did. -/
theorem step_cases {s t : State} (h : step s = .next t) :
    (s.input = [] ∧ t = s) ∨
    ∃ w rest i, s.input = w :: rest ∧ decode w = .ok i ∧ exec i { s with input := rest } = .next t := by
  unfold step at h
  split at h
  · rename_i hn
    cases h
    exact .inl ⟨by simpa [State.nextWord] using hn, rfl⟩
  · rename_i w hw
    obtain ⟨rest, hr⟩ : ∃ rest, s.input = w :: rest := by
      cases hi : s.input with
      | nil => simp [State.nextWord, hi] at hw
      | cons x rest =>
        simp only [State.nextWord, hi, List.head?_cons, Option.some.injEq] at hw
        exact ⟨rest, by rw [hw]⟩
    split at h
    · cases h
    · rename_i i hd
      have ht : s.takeWord = { s with input := rest } := by simp [State.takeWord, hr]
      exact .inr ⟨w, rest, i, hr, hd, ht ▸ h⟩

/-- A list of transactions run in two parts (20_memory.md R40). -/
theorem execAll_append (is js : List Instr) (s : State) :
    execAll (is ++ js) s =
      match execAll is s with
      | .next t => execAll js t
      | .fault f => .fault f
      | .refused r => .refused r := by
  induction is generalizing s with
  | nil => rfl
  | cons i is ih =>
    simp only [List.cons_append, execAll]
    split
    · rename_i t _
      exact ih t
    · rfl
    · rfl

/-- A transaction only adds to the outcomes (60_exceptions.md R100). -/
theorem exec_outcomes {i : Instr} {s t : State} (h : exec i s = .next t) : ∃ os, t.outcomes = s.outcomes ++ os := by
  cases i with
  | rxb b => cases h; exact ⟨[], by simp⟩
  | reset => cases h; exact ⟨[], by simp⟩
  | rxend =>
    rcases exec_rxend_cases h with ⟨_, rfl⟩ | ⟨_, _, _, _, _, rfl⟩ | ⟨_, _, _, _, _, _, rfl⟩ <;> exact ⟨_, rfl⟩
  | read =>
    obtain ⟨r, _, rfl⟩ := exec_read_cases h
    exact ⟨[], by simp⟩

/-- What a non-empty run that answers a next state did first. -/
theorem execAll_cons_eq_next {i : Instr} {is : List Instr} {s t : State} (h : execAll (i :: is) s = .next t) :
    ∃ m, exec i s = .next m ∧ execAll is m = .next t := by
  simp only [execAll] at h
  split at h
  · exact ⟨_, ‹_›, h⟩
  · cases h
  · cases h

/-- A run of transactions only adds to the outcomes. -/
theorem execAll_outcomes {is : List Instr} {s t : State} (h : execAll is s = .next t) :
    ∃ os, t.outcomes = s.outcomes ++ os := by
  induction is generalizing s with
  | nil => cases h; exact ⟨[], by simp⟩
  | cons i is ih =>
    obtain ⟨m, hm, hrest⟩ := execAll_cons_eq_next h
    obtain ⟨os, hos⟩ := exec_outcomes hm
    obtain ⟨os', hos'⟩ := ih hrest
    exact ⟨os ++ os', by rw [hos', hos, List.append_assoc]⟩

/-- The bytes of a burst, one RXB after the other. -/
theorem execAll_bytesTxns (bytes : List Byte) (s : State) :
    execAll (bytesTxns bytes) s = .next (bytes.foldl (fun s b => (s.emitEcho b).sinkByte b) s) := by
  induction bytes generalizing s with
  | nil => rfl
  | cons b bytes ih => exact ih _

/-- A burst that ends its frame. -/
theorem execAll_sendTxns (bytes : List Byte) (s : State) :
    execAll (sendTxns bytes) s = exec .rxend (bytes.foldl (fun s b => (s.emitEcho b).sinkByte b) s) := by
  rw [sendTxns, execAll_append, execAll_bytesTxns]
  simp only [execAll]
  split <;> simp_all

end Sys2Proof.Machine
end

