-- ==== Sys2Proof/Laws/Parser.lean ====
section
/-! SUPPORT. What the parts of the parser do to a sequence of bytes, said once. -/

namespace Sys2Proof.Machine

variable {c : Config}

/-- Over a maximal digit run the loop of `Digits` folds the accumulation and stops at the run's end. -/
theorem digitsFrom_run {d rest : List Byte} (hd : DigitRun d) (hr : NoDigitFirst rest) (v : Nat) :
    digitsFrom c v (d ++ rest) = (d.foldl (accumulate c) v, rest) := by
  induction d generalizing v with
  | nil =>
    cases rest with
    | nil => rfl
    | cons b t => simp [digitsFrom, hr b t rfl]
  | cons b d ih =>
    simp [digitsFrom, hd b List.mem_cons_self, ih fun x hx => hd x (List.mem_cons_of_mem _ hx)]

/-- Every sequence is a maximal digit run and the rest. -/
theorem exists_digitRun (s : List Byte) :
    ∃ d rest, s = d ++ rest ∧ DigitRun d ∧ NoDigitFirst rest := by
  refine ⟨s.takeWhile isDigit, s.dropWhile isDigit, (List.takeWhile_append_dropWhile).symm,
    fun b hb => List.mem_takeWhile_imp hb, fun b t h => ?_⟩
  have := List.head?_dropWhile_not isDigit s
  rw [h] at this
  simpa using this

/-- Every sequence is a maximal marker run and the rest. -/
theorem exists_markerRun (c : Config) (s : List Byte) :
    ∃ m rest, s = m ++ rest ∧ MarkerRun c m ∧ s.dropWhile (isMarker c) = rest ∧
      ∀ b t, rest = b :: t → isMarker c b = false := by
  refine ⟨s.takeWhile (isMarker c), s.dropWhile (isMarker c), (List.takeWhile_append_dropWhile).symm,
    fun b hb => List.mem_takeWhile_imp hb, rfl, fun b t h => ?_⟩
  have := List.head?_dropWhile_not (isMarker c) s
  rw [h] at this
  simpa using this

/-- Skipping a marker run. -/
theorem dropWhile_markerRun {m rest : List Byte} (hm : MarkerRun c m)
    (hr : ∀ b t, rest = b :: t → isMarker c b = false) : (m ++ rest).dropWhile (isMarker c) = rest := by
  induction m with
  | nil =>
    cases rest with
    | nil => rfl
    | cons b t => simp [hr b t rfl]
  | cons b m ih =>
    simp [hm b List.mem_cons_self, ih fun x hx => hm x (List.mem_cons_of_mem _ hx)]

/-- `parseLower` on a separator, a maximal digit run and what follows (41_frame_parser.md R71). -/
theorem parseLower_run {d rest : List Byte} (hd : DigitRun d) (hr : NoDigitFirst rest) (u : Nat) (sep : Byte) :
    parseLower c u (sep :: (d ++ rest)) =
      if d = [] then .err .emptyField2 else .ok u (d.foldl (accumulate c) 0) := by
  simp only [parseLower, digits, digitsFrom_run hd hr]
  cases d with
  | nil => simp
  | cons b d => simp; omega

/-- `parseFields` on a maximal digit run and what follows (41_frame_parser.md R69). -/
theorem parseFields_run {d rest : List Byte} (hd : DigitRun d) (hr : NoDigitFirst rest) :
    parseFields c (d ++ rest) =
      if d = [] then .err .emptyField1 else parseLower c (d.foldl (accumulate c) 0) rest := by
  simp only [parseFields, digits, digitsFrom_run hd hr]
  cases d with
  | nil => simp
  | cons b d => simp; omega

/-- `parse` on a non-empty marker run and what follows (41_frame_parser.md R66). -/
theorem parse_markerRun {m rest : List Byte} (hne : m ≠ []) (hm : MarkerRun c m)
    (hr : ∀ b t, rest = b :: t → isMarker c b = false) : parse c (m ++ rest) = parseFields c rest := by
  cases m with
  | nil => exact absurd rfl hne
  | cons b m =>
    have hb := hm b List.mem_cons_self
    simp only [List.cons_append, parse, hb, if_true]
    rw [dropWhile_markerRun (fun x hx => hm x (List.mem_cons_of_mem _ hx)) hr]

/-- A frame that does not begin with a marker is refused for that (41_frame_parser.md R66). -/
theorem parse_noMarker {s : List Byte} (h : ∀ b t, s = b :: t → isMarker c b = false) :
    parse c s = .err .noMarker := by
  cases s with
  | nil => rfl
  | cons b t => simp [parse, h b t rfl]

/-- The marker of a legal configuration is no digit (00_scope.md R10). -/
theorem marker_not_digit (c : LegalConfig) {b : Byte} (h : isMarker c.toConfig b = true) : isDigit b = false := by
  have hb : b = c.marker := by simpa [isMarker] using h
  exact hb ▸ c.facts.2.1

end Sys2Proof.Machine
end

