-- ==== Sys2Proof/Laws/PerInstr.lean ====
section
/-! SUPPORT. One fact per instruction: its word carries the bits of its row of the opcode map. -/

/-- The encoding agrees with the row's match and mask (30_encoding.md R49). -/
def Sys2Proof.Laws.TableRow.Statement (i : Sys2Proof.Instr) : Prop :=
  Sys2Proof.encode i &&& i.maskBits = i.matchBits

theorem Sys2Proof.Laws.TableRow.rxb (b : Sys2Proof.Byte) : Sys2Proof.Laws.TableRow.Statement (.rxb b) := by
  unfold Sys2Proof.Laws.TableRow.Statement Sys2Proof.encode Sys2Proof.Instr.maskBits Sys2Proof.Instr.matchBits
  revert b
  decide

theorem Sys2Proof.Laws.TableRow.rxend : Sys2Proof.Laws.TableRow.Statement .rxend := by
  unfold Sys2Proof.Laws.TableRow.Statement
  decide

theorem Sys2Proof.Laws.TableRow.read : Sys2Proof.Laws.TableRow.Statement .read := by
  unfold Sys2Proof.Laws.TableRow.Statement
  decide

theorem Sys2Proof.Laws.TableRow.reset : Sys2Proof.Laws.TableRow.Statement .reset := by
  unfold Sys2Proof.Laws.TableRow.Statement
  decide
end

