-- ==== Sys2Proof/Tests/Slice0.lean ====
section
/-! SUPPORT. Tests, with results from spec/95_test_vectors.md or worked by hand from the rules, and for each statement
with hypotheses a witness that something meets them. -/

namespace Sys2Proof.Tests

open Sys2Proof Sys2Proof.Machine

/-! ### Small states -/

/-- The bytes of a text (00_scope.md R14). -/
def txt (cs : List Char) : List Byte := cs.map fun c => BitVec.ofNat 8 c.toNat

/-- The configuration of the spec's vectors: `PWM_CLK_HZ = 625000` (95_test_vectors.md), a width that holds the period. -/
def vecCfg : LegalConfig := ⟨defaultConfig 625000 14 0 0, by decide⟩

/-- After reset, at that configuration. -/
def idle : State := { State.reset with cfg := vecCfg }

/-- `bytes` received since the frame began, nothing committed. -/
def holding (bytes : List Byte) : State :=
  { idle with buf := bytes.zipIdx.map fun x => (x.2, x.1), count := bytes.length, echo := bytes }

/-- PwmState after `SEND "S83,83"` (95_test_vectors.md 2.8). -/
def pwm83 : PwmState := ⟨true, some 83, some 83, some 943, some 943⟩

/-- `bytes` in flight on top of that commit. -/
def centred (bytes : List Byte) : State := { holding bytes with pwm := pwm83 }

/-- The next state, if there is one. -/
def nextOf : Host.Outcome State Fault Refusal → Option State
  | .next t => some t
  | .fault _ => none
  | .refused _ => none

/-! ### Decoding (30_encoding.md R49, words written bit by bit: kind 9..8, data 7..0) -/

theorem test_decode_rxb : decode 0b00_01010011#10 = .ok (.rxb 0x53#8) := by decide
theorem test_decode_rxend : decode 0b01_00000000#10 = .ok .rxend := by decide
theorem test_decode_read : decode 0b10_00000000#10 = .ok .read := by decide
theorem test_decode_reset : decode 0b11_00000000#10 = .ok .reset := by decide
theorem test_decode_reserved : decode 0b01_11111111#10 = .error (.reservedEncoding 0b01#2 0xFF#8) := by decide

/-- The words of R57's example. -/
theorem test_send_words : (sendTxns (txt ['S', '8', '3', ',', '8', '3'])).map encode =
    [0x053#10, 0x038#10, 0x033#10, 0x02C#10, 0x038#10, 0x033#10, 0x100#10] := by decide

theorem test_decodeTableWord :
    decodeTableWord 16 0x0FF = some (.rxb 0xFF#8) ∧ decodeTableWord 16 0x100 = some .rxend ∧
    decodeTableWord 16 0x200 = some .read ∧ decodeTableWord 16 0x300 = some .reset ∧
    decodeTableWord 16 0x280 = none ∧ decodeTableWord 16 0x400 = none := by decide

theorem test_first_step_after_reset :
    (nextOf (step (State.reset.withFetchWord 16 0x053))).map (fun t => (t.count, t.echo)) = some (1, [0x53#8]) ∧
    (nextOf (step (State.reset.withFetchWord 16 0x100))).map (·.outcomes) =
      some [.malformedFrame .noMarker] ∧
    (nextOf (step (State.reset.withFetchWord 16 0x200))).map (·.responses) = some [.uncommitted] ∧
    (nextOf (step (State.reset.withFetchWord 16 0x300))).map (·.count) = some 0 := by decide

/-! ### Well-formedness: a term each check refuses (00_scope.md R10, 30_encoding.md R50) -/

def base : Config := defaultConfig 625000 14 0 0

theorem test_bufCap_checked : Config.defect? { base with bufCap := 0 } = some .bufCapZero := by decide
theorem test_marker_checked : Config.defect? { base with marker := 0x39#8 } = some .markerIsDigit := by decide
theorem test_upper_window_checked : Config.defect? { base with upperMin := 151 } = some .upperWindow := by decide
theorem test_lower_window_checked : Config.defect? { base with lowerMin := 142 } = some .lowerWindow := by decide
theorem test_upper_field_checked : Config.defect? { base with fieldMax := 149 } = some .upperWindow := by decide
theorem test_upper_div_checked : Config.defect? { base with dutyDiv := 150 } = some .upperNotBelowDutyDiv := by decide
theorem test_lower_div_checked : Config.defect? { base with upperMax := 140, dutyDiv := 141 } =
    some .lowerNotBelowDutyDiv := by decide
theorem test_target_checked : Config.defect? { base with pwmTargetHz := 0 } = some .targetHzZero := by decide
/-- 95_test_vectors.md 2.6: 109 is refused, 110 is the smallest legal clock. -/
theorem test_period_checked : Config.defect? { base with pwmClkHz := 109 } = some .periodTooShort ∧
    Config.defect? { base with pwmClkHz := 110 } = none := by decide
/-- 95_test_vectors.md 2.6: 1000000 is legal if `PWM_W >= 15`. -/
theorem test_width_checked : Config.defect? { base with pwmClkHz := 1000000 } = some .dutyWidthTooSmall ∧
    Config.defect? { base with pwmClkHz := 1000000, pwmW := 15 } = none := by decide
theorem test_word_checked : TxnWord.wf 0x101#10 = false ∧ TxnWord.wf 0x100#10 = true := by decide

/-! ### Shared operations against the spec's vectors -/

/-- 95_test_vectors.md 2.2. -/
theorem test_byte_classes : [0x00#8, 0x2F#8, 0x30#8, 0x39#8, 0x3A#8, 0x53#8, 0x73#8, 0xB0#8, 0xFF#8].map (classify base) =
    [.other, .other, .digit, .digit, .other, .marker, .other, .other, .other] := by decide

/-- 95_test_vectors.md 2.4, the frames that parse. -/
theorem test_parse_ok :
    parse base (txt ['S', '0', '8', '3', ',', '0', '8', '3']) = .ok 83 83 ∧
    parse base (txt ['S', 'S', 'S', '9', '0', 'x', '1', '0', '0']) = .ok 90 100 ∧
    parse base (txt ['S', '8', '3', 'S', '8', '3']) = .ok 83 83 ∧
    parse base (txt ['S', '1', '5', '0'] ++ 0xFF#8 :: txt ['1', '4', '1']) = .ok 150 141 ∧
    parse base (txt ['S', '1', '2', '3', '4', ',', '5']) = .ok 999 5 ∧
    parse base (txt ['S', '8', '3', '.', '5', ',', '1', '0']) = .ok 83 5 := by decide

/-- 95_test_vectors.md 2.4, the frames that do not. -/
theorem test_parse_err :
    parse base [] = .err .noMarker ∧ parse base (txt [' ', 'S', '8', ',', '8']) = .err .noMarker ∧
    parse base (txt ['S', 'S']) = .err .emptyField1 ∧ parse base (txt ['S', '-', '5', ',', '8']) = .err .emptyField1 ∧
    parse base (txt ['S', '8', '3']) = .err .noSeparator ∧
    parse base (txt ['S', '8', '3', ',', ',', '8', '3']) = .err .emptyField2 := by decide

/-- 95_test_vectors.md 2.5. -/
theorem test_clamp :
    [0, 34, 35, 83, 150, 151, 999].map (clampUpper base) = [35, 35, 35, 83, 150, 150, 150] ∧
    [0, 25, 26, 83, 141, 142, 999].map (clampLower base) = [26, 26, 26, 83, 141, 141, 141] := by decide

/-- 95_test_vectors.md 2.6. -/
theorem test_duty :
    periodTicks base = 11362 ∧ [26, 35, 83, 90, 100, 141, 150].map (duty base) = [295, 397, 943, 1022, 1136, 1602, 1704] ∧
    [26, 35, 83, 141, 150].map (duty { base with pwmClkHz := 1000000 }) = [472, 636, 1508, 2563, 2727] := by decide

/-- 60_exceptions.md R101. -/
theorem test_outcome_codes :
    [FrameOutcome.committed, .malformedFrame .noMarker, .malformedFrame .emptyField1, .malformedFrame .noSeparator,
      .malformedFrame .emptyField2, .frameOverflow].map FrameOutcome.code = [0, 1, 2, 3, 4, 5] := by decide

/-- The widths of 10_state.md R17 and R28 at the defaults. -/
theorem test_widths : base.cntW = 6 ∧ base.fldW = 10 ∧ base.angW = 8 := by decide

/-! ### One step of each instruction -/

/-- 95_test_vectors.md 2.3: (49, 0) stores into the last cell with no overflow. -/
theorem test_rxb_last_cell :
    (nextOf (exec (.rxb 0x41#8) (holding (List.replicate 49 0x41#8)))).map (fun t => (t.count, t.ovf, t.cell 49)) =
      some (50, false, some 0x41#8) := by decide

/-- 95_test_vectors.md 2.3: (50, 0) overflows, stores nothing and echoes. -/
theorem test_rxb_full :
    (nextOf (exec (.rxb 0x53#8) (holding (List.replicate 50 0x41#8)))).map
        (fun t => (t.count, t.ovf, t.cell 50, t.echo.getLast?)) = some (50, true, none, some 0x53#8) := by decide

/-- 95_test_vectors.md 2.7: `"S200,10"` commits 150/26 and 1704/295. -/
theorem test_rxend_commits :
    (nextOf (exec .rxend (holding (txt ['S', '2', '0', '0', ',', '1', '0'])))).map
        (fun t => (t.pwm, t.count, t.outcomes)) =
      some (⟨true, some 150, some 26, some 1704, some 295⟩, 0, [.committed]) := by decide

/-- 95_test_vectors.md 2.7: `"S83,"` is EmptyField2 and keeps the last-good values. -/
theorem test_rxend_keeps_last_good :
    (nextOf (exec .rxend (centred (txt ['S', '8', '3', ','])))).map (fun t => (t.pwm, t.count, t.outcomes)) =
      some (pwm83, 0, [.malformedFrame .emptyField2]) := by decide

/-- 95_test_vectors.md 2.8, after reset. -/
theorem test_read_uncommitted : (nextOf (exec .read idle)).map (·.responses) = some [.uncommitted] := by decide

/-- 95_test_vectors.md 2.8, a frame in flight. -/
theorem test_read_snapshot :
    (nextOf (exec .read (centred (txt ['S', '1', '5', '0'])))).map (·.responses) =
      some [.snapshot 83 83 943 943] := by decide

/-- 95_test_vectors.md 2.9, `"S83"` in flight: dropped, no outcome. -/
theorem test_reset_drops_frame :
    (nextOf (exec .reset (centred (txt ['S', '8', '3'])))).map (fun t => (t.count, t.pwm, t.cell 0, t.outcomes)) =
      some (0, ⟨false, none, none, none, none⟩, none, []) := by decide

/-- 10_state.md R25: the core stops driving the lines. -/
theorem test_reset_lines :
    (nextOf (exec .reset { centred [] with cfg := ⟨defaultConfig 625000 14 7 9, by decide⟩ })).map
        (fun t => (t.pwmLine .pwm1, t.pwmLine .pwm0)) = some (some 7, some 9) := by decide

/-! ### The invariant holds of states of interest -/

theorem idle_inv : idle.Inv where
  frame := ⟨by decide, fun i hi => absurd hi (Nat.not_lt_zero i)⟩
  overflow h := by cases h
  canonical := by decide
  inSpace := by decide
  pwm := PwmState.reset_inv _

/-- A full buffer that has overflowed, on top of a commit, with a byte pending: every clause of the invariant at its
boundary. -/
def full : State := { centred (List.replicate 50 0x41#8) with ovf := true, input := [0x053#10] }

theorem pwm83_inv : pwm83.Inv vecCfg.toConfig where
  committed _ := ⟨83, 83, rfl, by decide, by decide, rfl, by decide, by decide, by decide, by decide⟩
  uncommitted h := by cases h

theorem full_inv : full.Inv where
  frame := ⟨by decide, fun i hi => ⟨0x41#8, by
    have h : ∀ j : Fin 50, full.cell j = some 0x41#8 := by decide
    exact h ⟨i, hi⟩⟩⟩
  overflow _ := by decide
  canonical := by decide
  inSpace := by decide
  pwm := pwm83_inv

/-! ### Witnesses: the hypotheses of each statement can be met -/

/-- `S83,8` and its valid-frame reading. -/
theorem validFrame_S83_8 (trailer : List Byte) (h : NoDigitFirst trailer) :
    ValidFrame vecCfg.toConfig (txt ['S']) (txt ['8', '3']) 0x2C#8 (txt ['8']) trailer where
  markers_ne := by decide
  markers_run := by decide
  field1_ne := by decide
  field1_run := by decide
  sep_noDigit := by decide
  field2_ne := by decide
  field2_run := by decide
  trailer_noDigit := h

theorem noDigitFirst_of {b : Byte} {t : List Byte} (h : isDigit b = false) : NoDigitFirst (b :: t) := by
  rintro x y ⟨⟩
  exact h

theorem noDigitFirst_nil : NoDigitFirst [] := by
  rintro x y ⟨⟩

theorem witness_DecodeInvertsEncode : Instr.wf (.rxb 0xFF#8) = true ∧ decode 0x0FF#10 = .ok (.rxb 0xFF#8) ∧
    decode 0x300#10 = .ok .reset := by decide

theorem witness_ReservedWordsAreRefused :
    [0x101#10, 0x2FF#10, 0x301#10].all (fun w => decide (TxnWord.kind w ∈ [0b01#2, 0b10#2, 0b11#2]) &&
      decide (TxnWord.data w ≠ 0x00#8)) = true ∧
    State.input { idle with input := [0x101#10] } = 0x101#10 :: [] := by decide

theorem witness_ByteClassesPartitionTheBytes : base.marker = 0x53#8 ∧
    [0x2F#8, 0x30#8, 0x39#8, 0x3A#8, 0x52#8, 0x53#8, 0x54#8].map (classify base) =
      [.other, .digit, .digit, .other, .other, .marker, .other] := by decide

theorem witness_StepRunsTheDecodedTransaction :
    (State.input { idle with input := [0x053#10, 0x101#10] } = 0x053#10 :: [0x101#10] ∧
      decode 0x053#10 = .ok (.rxb 0x53#8) ∧ Instr.wf (.rxb 0x53#8) = true) ∧
    (State.input { idle with input := [0x101#10] } = 0x101#10 :: [] ∧
      decode 0x101#10 = .error (.reservedEncoding 0b01#2 0x01#8)) ∧
    idle.input = [] := by decide

theorem witness_DeliveredWordsRunInTheirOrder :
    State.input { idle with input := [0x053#10, 0x100#10, 0x101#10] } =
      [Instr.rxb 0x53#8, .rxend].map encode ++ [0x101#10] := by decide

theorem witness_ValuesFitTheirWidths : full.Inv ∧ full.pwm.angUpper = some 83 ∧ full.pwm.dutyLower = some 943 ∧
    parse base (txt ['S', '9', '9', '9', ',', '0']) = .ok 999 0 :=
  ⟨full_inv, by decide, by decide, by decide⟩

theorem witness_RxbStoresAtTheWriteIndex :
    (idle.count < idle.cfg.bufCap ∧ idle.frameBytes = .ok []) ∧
    (State.count (holding (List.replicate 49 0x41#8)) < 50 ∧
      (holding (List.replicate 49 0x41#8)).frameBytes = .ok (List.replicate 49 0x41#8)) := by decide

theorem witness_OverflowingFrameIsDiscardedWhole :
    full.count = full.cfg.bufCap ∧ idle.FrameEmpty ∧ idle.cfg.bufCap < (List.replicate 51 0x41#8).length :=
  ⟨by decide, ⟨rfl, rfl⟩, by decide⟩

theorem witness_EchoIsExactlyTheBytesReceived : ∃ t, exec (.rxb 0x41#8) full = .next t := ⟨_, rfl⟩

theorem witness_BurstFillsTheBufferInArrivalOrder : idle.FrameEmpty := ⟨rfl, rfl⟩

theorem witness_ParseAcceptsExactlyTheGrammar :
    parse vecCfg.toConfig (txt ['S', '8', '3', ',', '8']) = .ok 83 8 ∧
    ValidFrame vecCfg.toConfig (txt ['S']) (txt ['8', '3']) 0x2C#8 (txt ['8']) [] :=
  ⟨by decide, validFrame_S83_8 _ noDigitFirst_nil⟩

theorem witness_ParseErrorsNameTheFirstFailingCheck :
    parse vecCfg.toConfig [] = .err .noMarker ∧ parse vecCfg.toConfig (txt ['S']) = .err .emptyField1 ∧
    parse vecCfg.toConfig (txt ['S', '8']) = .err .noSeparator ∧
    parse vecCfg.toConfig (txt ['S', '8', ',']) = .err .emptyField2 := by decide

theorem witness_DigitRunsSaturateUnseen : DigitRun (txt ['1', '0', '0', '0']) ∧ NoDigitFirst (txt [',', '5']) ∧
    decValue (txt ['1', '0', '0', '0']) = 1000 :=
  ⟨by decide, noDigitFirst_of (by decide), by decide⟩

theorem witness_DecimalSpellingsRoundTrip : 0 ≤ vecCfg.fieldMax ∧ 999 ≤ vecCfg.fieldMax ∧
    decimalSpelling 1 0 ≠ [] ∧ decimalSpelling 0 999 ≠ [] := by
  refine ⟨by decide, by decide, by simp [decimalSpelling], by simp [decimalSpelling]⟩

theorem witness_BytesAfterTheSecondFieldAreIgnored :
    ValidFrame vecCfg.toConfig (txt ['S']) (txt ['8', '3']) 0x2C#8 (txt ['8']) (txt [',', '9', '9']) :=
  validFrame_S83_8 _ (noDigitFirst_of (by decide))

theorem witness_ValidFramesHaveAtLeastFourBytes : parse vecCfg.toConfig (txt ['S', '0', ',', '0']) = .ok 0 0 := by
  decide

theorem witness_ClampLandsInItsWindow : 35 ≤ 150 ∧ 34 < 35 ∧ 150 < 151 ∧ 35 ≤ 35 := by decide

theorem witness_DutyIsBelowThePeriodAndMonotone : 150 ≤ max vecCfg.upperMax vecCfg.lowerMax ∧ 26 ≤ 150 := by decide

theorem witness_RxendRunsTheWholePipeline :
    full.ovf = true ∧
    (State.ovf (holding (txt ['X'])) = false ∧ (holding (txt ['X'])).FrameReadable ∧
      parse vecCfg.toConfig (txt ['X']) = .err .noMarker) ∧
    (idle.ovf = false ∧ idle.FrameReadable) ∧
    parse vecCfg.toConfig (txt ['S', '8', ',', '8']) = .ok 8 8 :=
  ⟨by decide, ⟨by decide, (State.frameBytes_eq_ok (bs := txt ['X']) (by decide)).2.1, by decide⟩,
    ⟨by decide, idle_inv.frame⟩, by decide⟩

theorem witness_EmptyFrameIsMalformed : idle.count = 0 ∧ idle.ovf = false := by decide

theorem witness_FailedFrameKeepsLastGoodValues : ∃ t, exec .rxend (centred (txt ['X', 'Y', 'Z'])) = .next t ∧
    t.outcomes = [.malformedFrame .noMarker] := ⟨_, rfl, rfl⟩

theorem witness_DiscardedBurstLeavesOnlyItsEcho : idle.FrameEmpty ∧
    ∃ t, execAll (sendTxns (txt ['X', 'Y', 'Z'])) idle = .next t ∧ t.outcomes = [.malformedFrame .noMarker] :=
  ⟨⟨rfl, rfl⟩, _, rfl, rfl⟩

/-- Exactly BUF_CAP bytes: `"S83,8"` and 45 trailing `'A'`. -/
theorem witness_ValidBurstCommitsItsClampedFields : idle.FrameEmpty ∧
    ValidFrame idle.cfg.toConfig (txt ['S']) (txt ['8', '3']) 0x2C#8 (txt ['8']) (List.replicate 45 0x41#8) ∧
    (txt ['S'] ++ txt ['8', '3'] ++ [0x2C#8] ++ txt ['8'] ++ List.replicate 45 0x41#8).length ≤ idle.cfg.bufCap :=
  ⟨⟨rfl, rfl⟩, validFrame_S83_8 _ (noDigitFirst_of (b := 0x41#8) (t := List.replicate 44 0x41#8) (by decide)), by decide⟩

theorem witness_DefaultFrameS083Commits83 : idle.cfg.toConfig = defaultConfig 625000 14 0 0 ∧ idle.FrameEmpty :=
  ⟨rfl, rfl, rfl⟩

theorem witness_SameFrameTwiceSamePwmState : idle.FrameEmpty ∧
    (txt ['S', '8', '3', ',', '8']).length ≤ idle.cfg.bufCap ∧
    parse idle.cfg.toConfig (txt ['S', '8', '3', ',', '8']) = .ok 83 8 :=
  ⟨⟨rfl, rfl⟩, by decide, by decide⟩

theorem witness_FrameSplitInItsSecondFieldCommitsTheFirstPart : idle.FrameEmpty ∧
    ValidFrame idle.cfg.toConfig (txt ['S']) (txt ['8', '3']) 0x2C#8 (txt ['8']) [] ∧ txt ['3'] ≠ [] ∧
    DigitRun (txt ['3']) ∧
    (txt ['S'] ++ txt ['8', '3'] ++ [0x2C#8] ++ txt ['8'] ++ txt ['3']).length ≤ idle.cfg.bufCap :=
  ⟨⟨rfl, rfl⟩, validFrame_S83_8 _ noDigitFirst_nil, by decide, by decide, by decide⟩

theorem witness_CommitDrivesBothPwmLines : ∃ t, exec .rxend (holding (txt ['S', '8', ',', '8'])) = .next t ∧
    t.outcomes = (holding (txt ['S', '8', ',', '8'])).outcomes ++ [.committed] := ⟨_, rfl, rfl⟩

theorem witness_ReadAnswersTheSnapshot : idle.pwm.valid = false ∧ full.pwm.valid = true ∧
    full.pwm.angUpper = some 83 ∧ full.pwm.angLower = some 83 ∧ full.pwm.dutyUpper = some 943 ∧
    full.pwm.dutyLower = some 943 := by decide

theorem witness_SnapshotComesFromOneCommit : idle.pwm.Inv idle.cfg.toConfig ∧ full.pwm.Inv full.cfg.toConfig ∧
    idle.pwm.valid = false ∧ full.pwm.valid = true :=
  ⟨idle_inv.pwm, full_inv.pwm, by decide, by decide⟩

/-- A commit over an older one, then a failed frame and a READ: no later commit, no RESET. -/
theorem witness_SnapshotComesFromOneCommit_run : ∃ s₁ s₂,
    (centred (txt ['S', '8', ',', '9'])).ovf = false ∧
    (centred (txt ['S', '8', ',', '9'])).frameBytes = .ok (txt ['S', '8', ',', '9']) ∧
    parse vecCfg.toConfig (txt ['S', '8', ',', '9']) = .ok 8 9 ∧
    exec .rxend (centred (txt ['S', '8', ',', '9'])) = .next s₁ ∧
    execAll [.rxb 0x58#8, .rxend, .read] s₁ = .next s₂ ∧ .reset ∉ [Instr.rxb 0x58#8, .rxend, .read] ∧
    s₂.outcomes = s₁.outcomes ++ [.malformedFrame .noMarker] ∧
    .committed ∉ [FrameOutcome.malformedFrame .noMarker] :=
  ⟨_, _, by decide, by decide, by decide, rfl, rfl, by decide, rfl, by decide⟩

theorem witness_ReadSeesNothingOfTheFrameInFlight :
    (∃ t, exec .read idle = .next t ∧ t.responses = idle.responses ++ [.uncommitted]) ∧
    (full.pwm = (centred []).pwm ∧ ∃ t, exec .read full = .next t) := ⟨⟨_, rfl, rfl⟩, by decide, _, rfl⟩

theorem witness_NoValueIsNeverSupplied :
    (PwmState.valid ⟨true, some 83, some 83, some 943, none⟩ = true ∧
      PwmState.dutyLower ⟨true, some 83, some 83, some 943, none⟩ = none) ∧
    (State.ovf { idle with count := 50 } = false ∧ State.count { idle with count := 50 } ≤ idle.cfg.bufCap ∧
      49 < State.count { idle with count := 50 } ∧ State.cell { idle with count := 50 } 49 = none) := by decide

theorem witness_TransactionsTouchOnlyTheirOwnElements :
    (∃ t, exec (.rxb 0x41#8) idle = .next t) ∧ idle.count < idle.cfg.bufCap ∧
    (∃ t, exec (.rxb 0x41#8) full = .next t) ∧ ¬ full.count < full.cfg.bufCap ∧
    (∃ t, exec .rxend full = .next t ∧ t.outcomes ≠ full.outcomes ++ [.committed]) ∧
    (∃ t, exec .read full = .next t) ∧ (∃ t, exec .reset full = .next t) :=
  ⟨⟨_, rfl⟩, by decide, ⟨_, rfl⟩, by decide, ⟨_, rfl, by decide⟩, ⟨_, rfl⟩, ⟨_, rfl⟩⟩

theorem witness_HostTransactionsWriteNoElement : issuer .read = .host ∧ ∃ t, exec .read full = .next t :=
  ⟨rfl, _, rfl⟩

theorem witness_OnlyCommitAndResetWritePwmState :
    (∃ t, exec .rxend (holding (txt ['S', '8', ',', '8'])) = .next t ∧
      t.pwm ≠ (holding (txt ['S', '8', ',', '8'])).pwm) ∧
    (∃ t, exec .reset full = .next t ∧ t.pwmLine .pwm1 ≠ full.pwmLine .pwm1) :=
  ⟨⟨_, rfl, by decide⟩, ⟨_, rfl, by decide⟩⟩

theorem witness_OverflowFlagLife :
    (∃ t, exec (.rxb 0x41#8) (holding (List.replicate 50 0x41#8)) = .next t ∧
      (holding (List.replicate 50 0x41#8)).ovf = false ∧ t.ovf = true) ∧
    (∃ t, exec .rxend full = .next t ∧ full.ovf = true ∧ t.ovf = false) ∧
    (∃ t, exec .reset full = .next t ∧ full.ovf = true ∧ t.ovf = false) ∧
    (Instr.read ≠ .rxend ∧ ∃ t, exec .read full = .next t) :=
  ⟨⟨_, rfl, by decide, by decide⟩, ⟨_, rfl, by decide, by decide⟩, ⟨_, rfl, by decide, by decide⟩, by decide, _, rfl⟩

theorem witness_ExactlyOneOutcomePerRxend : full.pwm.Inv full.cfg.toConfig ∧ full.FrameReadable ∧
    idle.pwm.Inv idle.cfg.toConfig ∧ idle.FrameReadable :=
  ⟨full_inv.pwm, full_inv.frame, idle_inv.pwm, idle_inv.frame⟩

theorem witness_StepKeepsTheInvariant : full.Inv ∧ ∃ t, step full = .next t := ⟨full_inv, _, rfl⟩

theorem witness_NoFaultWhereTheInvariantHolds : idle.Inv ∧ full.Inv := ⟨idle_inv, full_inv⟩

theorem witness_StepKeepsTheFrameEqualToTheLastEcho : idle.Inv ∧ idle.FrameIsLastEcho ∧ ∃ t, step idle = .next t :=
  ⟨idle_inv, fun _ => ⟨[], [], rfl, rfl⟩, _, rfl⟩

/-- Two states that differ in cell 0, with no frame in progress and a READ pending. -/
theorem witness_StaleCellsAreNeverRead :
    SameButStaleCells { idle with buf := [(0, 0x41#8)], input := [0x200#10] } { idle with input := [0x200#10] } ∧
    State.cell { idle with buf := [(0, 0x41#8)] } 0 ≠ idle.cell 0 ∧
    ∃ t, step { idle with buf := [(0, 0x41#8)], input := [0x200#10] } = .next t :=
  ⟨⟨rfl, rfl, rfl, fun i hi => absurd hi (Nat.not_lt_zero i), rfl, rfl, rfl, rfl, rfl⟩, by decide, _, rfl⟩

end Sys2Proof.Tests
end

