-- ==== Sys2Proof/Proofs/Scope.lean ====
section
/-! PROOF. The scope family (spec/00_scope.md): which configurations the model takes (R10). -/

namespace Sys2Proof.Machine

/-- No condition of 00_scope.md R10 fails exactly when all of them hold. -/
theorem defect?_eq_none_iff (c : Config) : c.defect? = none ↔
    1 ≤ c.bufCap ∧ isDigit c.marker = false ∧
    c.upperMin ≤ c.upperMax ∧ c.upperMax ≤ c.fieldMax ∧
    c.lowerMin ≤ c.lowerMax ∧ c.lowerMax ≤ c.fieldMax ∧
    c.upperMax < c.dutyDiv ∧ c.lowerMax < c.dutyDiv ∧
    1 ≤ c.pwmTargetHz ∧ 2 ≤ c.pwmClkHz / c.pwmTargetHz ∧
    c.pwmClkHz / c.pwmTargetHz - 1 < 2 ^ c.pwmW := by
  constructor
  · intro h
    obtain ⟨hcap, hmark, ⟨hu, huf⟩, ⟨hl, hlf⟩, hud, hld, hhz, hclk, hw⟩ := LegalConfig.facts ⟨c, h⟩
    exact ⟨hcap, hmark, hu, huf, hl, hlf, hud, hld, hhz, hclk, hw⟩
  · rintro ⟨hcap, hmark, hu, huf, hl, hlf, hud, hld, hhz, hclk, hw⟩
    simp [Config.defect?, periodTicks, hmark, hu, huf, hl, hlf, hud, hld, hw,
      Nat.not_lt.mpr hcap, Nat.ne_of_gt hhz, Nat.not_lt.mpr hclk]

/-- A configuration without a defect is taken as it stands. -/
theorem accept_of_defect?_eq_none {c : Config} (h : c.defect? = none) : c.accept = .ok ⟨c, h⟩ := by
  unfold Config.accept
  split
  case h_1 => rfl
  case h_2 d hd => exact absurd (hd.symm.trans h) (Option.some_ne_none d)

/-- A configuration with a defect is refused under that defect's name. -/
theorem accept_of_defect?_eq_some {c : Config} {d : ConfigDefect} (h : c.defect? = some d) :
    c.accept = .error d := by
  unfold Config.accept
  split
  case h_1 hn => exact absurd (h.symm.trans hn) (Option.some_ne_none d)
  case h_2 d' hd => exact congrArg Except.error (Option.some.inj (hd.symm.trans h))

/-- A configuration is taken or refused by name. -/
theorem accept_ok_or_error (c : Config) :
    (∃ lc : LegalConfig, c.accept = .ok lc) ∨ ∃ d, c.accept = .error d := by
  cases h : c.defect? with
  | none => exact .inl ⟨_, accept_of_defect?_eq_none h⟩
  | some d => exact .inr ⟨d, accept_of_defect?_eq_some h⟩

/-- Only a configuration without a defect is taken. -/
theorem exists_accept_eq_ok_iff (c : Config) :
    (∃ lc : LegalConfig, c.accept = .ok lc) ↔ c.defect? = none := by
  refine ⟨fun ⟨lc, hok⟩ => ?_, fun h => ⟨_, accept_of_defect?_eq_none h⟩⟩
  cases h : c.defect? with
  | none => rfl
  | some d => exact nomatch hok.symm.trans (accept_of_defect?_eq_some h)

/-- A configuration that is taken is taken unchanged. -/
theorem toConfig_of_accept {c : Config} {lc : LegalConfig} (hok : c.accept = .ok lc) : lc.toConfig = c := by
  have h := (exists_accept_eq_ok_iff c).mp ⟨lc, hok⟩
  cases hok.symm.trans (accept_of_defect?_eq_none h)
  rfl

/-- With the default values, R10 constrains only the OPEN parameters of R9. -/
theorem defaultConfig_defect?_eq_none_iff (clk w iu il : Nat) :
    (defaultConfig clk w iu il).defect? = none ↔ 2 ≤ clk / 55 ∧ clk / 55 - 1 < 2 ^ w := by
  refine ⟨fun h => ?_, fun ⟨hclk, hw⟩ => defaultConfig_legal hclk hw⟩
  obtain ⟨-, -, -, -, -, -, -, -, -, hclk, hw⟩ := (defect?_eq_none_iff _).mp h
  exact ⟨hclk, hw⟩

/-- Settles O7: acceptance is the absence of a defect, and the absence of a defect is R10's conditions. -/
theorem onlyLegalConfigurationsAreAccepted : Obligations.OnlyLegalConfigurationsAreAccepted := by
  refine ⟨fun c => ?_, accept_ok_or_error, fun clk w iu il => ?_⟩
  · have taken_unchanged : (∃ lc : LegalConfig, c.accept = .ok lc ∧ lc.toConfig = c) ↔
        ∃ lc : LegalConfig, c.accept = .ok lc :=
      exists_congr fun _ => and_iff_left_of_imp toConfig_of_accept
    exact taken_unchanged.trans ((exists_accept_eq_ok_iff c).trans (defect?_eq_none_iff c))
  · exact (exists_accept_eq_ok_iff _).trans (defaultConfig_defect?_eq_none_iff clk w iu il)

end Sys2Proof.Machine
end

