-- ==== Sys2Proof/Proofs/State.lean ====
section
/-! PROOF. The state family (spec/10_state.md): the invariant, the bytes of a frame, the flag `ovf`, elements with no
value. -/

namespace Sys2Proof.Machine

/-! ### A step, case by case -/

/-- With no transaction pending the core idles (60_exceptions.md R117). -/
theorem step_of_idle {s : State} (h : s.input = []) : step s = .next s := by
  simp [step, State.nextWord, h]

/-- A front word that spells a transaction is taken and run. -/
theorem step_of_decode_ok {s : State} {w : TxnWord} {rest : List TxnWord} {i : Instr} (h : s.input = w :: rest)
    (hd : decode w = .ok i) : step s = exec i s.takeWord := by
  simp [step, State.nextWord, h, hd]

/-- A front word that spells none is refused (30_encoding.md R50). -/
theorem step_of_decode_error {s : State} {w : TxnWord} {rest : List TxnWord} {e : DecodeReject}
    (h : s.input = w :: rest) (hd : decode w = .error e) : step s = .refused (.reservedWord w) := by
  simp [step, State.nextWord, h, hd]

/-- Only a reserved word is rejected by the decoder (30_encoding.md R50). -/
theorem wf_eq_false_of_decode_error {w : TxnWord} {e : DecodeReject} (hd : decode w = .error e) :
    TxnWord.wf w = false := by
  unfold decode at hd
  split at hd
  · cases hd
  · rename_i hkind
    split at hd
    · rename_i hdata
      exact Bool.or_eq_false_iff.mpr ⟨beq_eq_false_iff_ne.mpr hkind, beq_eq_false_iff_ne.mpr hdata⟩
    · repeat' split at hd
      all_goals cases hd

/-- READ where PwmState has an answer (45_snapshot_read.md R97). -/
theorem exec_read_of_answer {s : State} {r : ReadResponse} (h : s.pwm.answer = .ok r) :
    exec .read s = .next (s.respond r) := by
  simp [exec, execRead, h]

/-- READ where PwmState has none (10_state.md R32). -/
theorem exec_read_of_error {s : State} {f : Fault} (h : s.pwm.answer = .error f) : exec .read s = .fault f := by
  simp [exec, execRead, h]

/-- RXEND of a frame that cannot be read (10_state.md R32). -/
theorem exec_rxend_of_error {s : State} {f : Fault} (ho : s.ovf = false) (h : s.frameBytes = .error f) :
    exec .rxend s = .fault f := by
  simp [exec, execRxend, ho, h]

/-! ### One byte taken by the sink (40_byte_sink.md R59, R60) -/

theorem State.sinkByte_count (s : State) (b : Byte) :
    (s.sinkByte b).count = if s.count < s.cfg.bufCap then s.count + 1 else s.count := by
  split
  · rename_i h; simp [State.sinkByte_of_lt s b h]
  · rename_i h; simp [State.sinkByte_of_not_lt s b h]

/-- The sink sets `ovf` where the buffer is full and keeps it elsewhere. -/
theorem State.sinkByte_ovf (s : State) (b : Byte) :
    (s.sinkByte b).ovf = if s.count < s.cfg.bufCap then s.ovf else true := by
  split
  · rename_i h; simp [State.sinkByte_of_lt s b h]
  · rename_i h; simp [State.sinkByte_of_not_lt s b h]

/-- The sink writes no cell at or above the `count` it leaves. -/
theorem State.cell_sinkByte_of_count_le (s : State) (b : Byte) {i : Nat} (hi : (s.sinkByte b).count ≤ i) :
    (s.sinkByte b).cell i = s.cell i := by
  rw [State.sinkByte_count] at hi
  split at hi
  · rename_i h
    rw [State.sinkByte_of_lt s b h, State.cell_appendByte_other s b (by omega)]
  · rename_i h
    rw [State.sinkByte_of_not_lt s b h]
    rfl

/-- The sink extends the frame by the byte it stores. -/
theorem State.frameBytes_sinkByte {s : State} {bs : List Byte} (b : Byte) (h : s.frameBytes = .ok bs) :
    (s.sinkByte b).frameBytes = .ok (if s.count < s.cfg.bufCap then bs ++ [b] else bs) := by
  split
  · rename_i hlt
    rw [State.sinkByte_of_lt s b hlt, State.frameBytes_appendByte b hlt h]
  · rename_i hfull
    rw [State.sinkByte_of_not_lt s b hfull, ← h]
    exact State.frameBytes_congr rfl rfl fun _ _ => rfl

theorem State.cell_emitEcho (s : State) (b : Byte) (i : Nat) : (s.emitEcho b).cell i = s.cell i := rfl

/-! ### The invariant, operation by operation -/

/-- The invariant speaks of the configuration, the buffer, `count`, `ovf` and PwmState only. -/
theorem State.Inv.congr {s t : State} (h : s.Inv) (hcfg : t.cfg = s.cfg) (hbuf : t.buf = s.buf)
    (hcount : t.count = s.count) (hovf : t.ovf = s.ovf) (hpwm : t.pwm = s.pwm) : t.Inv where
  frame := by simpa [State.FrameReadable, State.cell, hcfg, hbuf, hcount] using h.frame
  overflow := by simpa [hcfg, hcount, hovf] using h.overflow
  canonical := by simpa [hbuf] using h.canonical
  inSpace := by simpa [hcfg, hbuf] using h.inSpace
  pwm := by simpa [hcfg, hpwm] using h.pwm

theorem State.Inv.appendByte {s : State} (h : s.Inv) (b : Byte) (hlt : s.count < s.cfg.bufCap) :
    (s.appendByte b).Inv where
  frame := by
    refine ⟨hlt, fun i hi => ?_⟩
    rcases Nat.lt_succ_iff_lt_or_eq.mp hi with hi | rfl
    · rw [State.cell_appendByte_other s b (Nat.ne_of_lt hi)]
      exact h.frame.2 i hi
    · exact ⟨b, State.cell_appendByte_same s b⟩
  overflow ho := absurd (h.overflow ho) (Nat.ne_of_lt hlt)
  canonical := Memory.write_wf h.canonical s.count b
  inSpace x hx := by
    rcases Memory.mem_write hx with rfl | hx
    · exact hlt
    · exact h.inSpace x hx
  pwm := h.pwm

theorem State.Inv.sinkByte {s : State} (h : s.Inv) (b : Byte) : (s.sinkByte b).Inv := by
  by_cases hlt : s.count < s.cfg.bufCap
  · rw [State.sinkByte_of_lt s b hlt]
    exact h.appendByte b hlt
  · rw [State.sinkByte_of_not_lt s b hlt]
    have hfull : s.count = s.cfg.bufCap := Nat.le_antisymm h.frame.1 (Nat.le_of_not_lt hlt)
    exact ⟨h.frame, fun _ => hfull, h.canonical, h.inSpace, h.pwm⟩

theorem State.Inv.clearFrame {s : State} (h : s.Inv) : s.clearFrame.Inv where
  frame := ⟨Nat.zero_le _, fun _ hi => absurd hi (Nat.not_lt_zero _)⟩
  overflow ho := by cases ho
  canonical := h.canonical
  inSpace := h.inSpace
  pwm := h.pwm

theorem State.Inv.clearAll (s : State) : s.clearAll.Inv where
  frame := ⟨Nat.zero_le _, fun _ hi => absurd hi (Nat.not_lt_zero _)⟩
  overflow ho := by cases ho
  canonical := Memory.nil_wf
  inSpace _ hx := by cases hx
  pwm := PwmState.reset_inv _

theorem State.Inv.discardFrame {s : State} (h : s.Inv) (o : FrameOutcome) : (s.discardFrame o).Inv :=
  h.clearFrame.congr rfl rfl rfl rfl rfl

/-- A clamped value lies in its window (42_angle_clamper.md R77). -/
theorem clamp_mem_window (v : Nat) {lo hi : Nat} (h : lo ≤ hi) : lo ≤ clamp v lo hi ∧ clamp v lo hi ≤ hi := by
  unfold clamp
  split
  · omega
  · split <;> omega

theorem State.Inv.commitFrame {s : State} (h : s.Inv) (u l : Nat) : (s.commitFrame u l).Inv := by
  obtain ⟨-, -, ⟨hu, -⟩, ⟨hl, -⟩, -⟩ := s.cfg.facts
  have hcommit : (s.commit (clampUpper s.cfg.toConfig u) (clampLower s.cfg.toConfig l)).Inv :=
    ⟨h.frame, h.overflow, h.canonical, h.inSpace,
      PwmState.committed_inv (clamp_mem_window u hu) (clamp_mem_window l hl)⟩
  exact hcommit.clearFrame.congr rfl rfl rfl rfl rfl

/-- Every transaction keeps the invariant. -/
theorem State.Inv.of_exec {s t : State} (h : s.Inv) {i : Instr} (he : exec i s = .next t) : t.Inv := by
  cases i with
  | rxb b =>
    cases he
    have hecho : (s.emitEcho b).Inv := h.congr rfl rfl rfl rfl rfl
    exact hecho.sinkByte b
  | rxend =>
    rcases exec_rxend_cases he with ⟨-, rfl⟩ | ⟨-, _, r, -, -, rfl⟩ | ⟨-, _, u, l, -, -, rfl⟩
    · exact h.discardFrame _
    · exact h.discardFrame _
    · exact h.commitFrame u l
  | read =>
    obtain ⟨r, -, rfl⟩ := exec_read_cases he
    exact h.congr rfl rfl rfl rfl rfl
  | reset =>
    cases he
    exact State.Inv.clearAll s

/-- Settles O42: a step idles or runs one transaction, and every transaction keeps the invariant. -/
theorem stepKeepsTheInvariant : Obligations.StepKeepsTheInvariant := by
  intro s t h hs
  rcases step_cases hs with ⟨-, rfl⟩ | ⟨w, rest, i, -, -, he⟩
  · exact h
  · have htaken : State.Inv { s with input := rest } := h.congr rfl rfl rfl rfl rfl
    exact htaken.of_exec he

/-- Settles O11: the reset state is one that RESET leaves (70_reset_and_hazards.md R119), and its frame is empty. -/
theorem resetStateMeetsTheInvariant : Obligations.ResetStateMeetsTheInvariant :=
  ⟨State.Inv.clearAll State.reset, fun _ => ⟨[], [], State.frameBytes_of_empty rfl, rfl⟩⟩

/-- Settles O9: R33's values are those `State.reset` is built from. -/
theorem resetStateHoldsTheResetValues : Obligations.ResetStateHoldsTheResetValues :=
  ⟨rfl, rfl, rfl, fun _ => rfl, rfl, rfl, rfl, rfl, rfl, rfl, rfl⟩

/-! ### Progress -/

/-- Where R24 holds, READ has an answer. -/
theorem PwmState.Inv.exists_answer {c : Config} {p : PwmState} (h : p.Inv c) : ∃ r, p.answer = .ok r := by
  cases hv : p.valid with
  | false => exact ⟨_, PwmState.answer_of_not_valid hv⟩
  | true =>
    obtain ⟨u, l, hu, -, -, hl, -, -, hdu, hdl⟩ := h.committed hv
    exact ⟨_, PwmState.answer_of_valid hv hu hl hdu hdl⟩

/-- Where the invariant holds, every transaction completes. -/
theorem State.Inv.exists_next {s : State} (h : s.Inv) (i : Instr) : ∃ t, exec i s = .next t := by
  cases he : exec i s with
  | next t => exact ⟨t, rfl⟩
  | refused r => exact absurd he (exec_ne_refused i s r)
  | fault f =>
    rcases exec_eq_fault he with ⟨-, -, hf⟩ | ⟨-, hf⟩
    · obtain ⟨bs, hbs⟩ := State.frameBytes_of_readable h.frame
      cases hbs.symm.trans hf
    · obtain ⟨r, hr⟩ := h.pwm.exists_answer
      cases hr.symm.trans hf

/-- Settles O43: every decoded transaction completes, and what is not decoded is a reserved word. -/
theorem noFaultWhereTheInvariantHolds : Obligations.NoFaultWhereTheInvariantHolds := by
  intro s h
  cases hi : s.input with
  | nil => exact .inl ⟨s, step_of_idle hi⟩
  | cons w rest =>
    cases hd : decode w with
    | error e => exact .inr ⟨w, rest, rfl, wf_eq_false_of_decode_error hd, step_of_decode_error hi hd⟩
    | ok i =>
      have htaken : s.takeWord.Inv := h.congr rfl rfl rfl rfl rfl
      rw [step_of_decode_ok hi hd]
      exact .inl (htaken.exists_next i)

/-! ### Stale cells: a relation between two states that every step keeps -/

section StaleCells

variable {s s' : State}

theorem SameButStaleCells.emitEcho (h : SameButStaleCells s s') (b : Byte) :
    SameButStaleCells (s.emitEcho b) (s'.emitEcho b) :=
  { h with echo := congrArg (· ++ [b]) h.echo }

theorem SameButStaleCells.appendByte (h : SameButStaleCells s s') (b : Byte) :
    SameButStaleCells (s.appendByte b) (s'.appendByte b) :=
  { h with
    count := congrArg (· + 1) h.count
    cells := fun i hi => by
      rcases Nat.lt_succ_iff_lt_or_eq.mp hi with hi | rfl
      · rw [State.cell_appendByte_other s b (Nat.ne_of_lt hi),
          State.cell_appendByte_other s' b (Nat.ne_of_lt (h.count ▸ hi)), h.cells i hi]
      · rw [State.cell_appendByte_same, h.count, State.cell_appendByte_same] }

theorem SameButStaleCells.sinkByte (h : SameButStaleCells s s') (b : Byte) :
    SameButStaleCells (s.sinkByte b) (s'.sinkByte b) := by
  by_cases hlt : s.count < s.cfg.bufCap
  · rw [State.sinkByte_of_lt s b hlt, State.sinkByte_of_lt s' b (h.count ▸ h.cfg ▸ hlt)]
    exact h.appendByte b
  · rw [State.sinkByte_of_not_lt s b hlt, State.sinkByte_of_not_lt s' b (h.count ▸ h.cfg ▸ hlt)]
    exact { h with ovf := rfl }

theorem SameButStaleCells.clearFrame (h : SameButStaleCells s s') :
    SameButStaleCells s.clearFrame s'.clearFrame :=
  { h with count := rfl, ovf := rfl, cells := fun _ hi => absurd hi (Nat.not_lt_zero _) }

theorem SameButStaleCells.finish (h : SameButStaleCells s s') (o : FrameOutcome) :
    SameButStaleCells (s.finish o) (s'.finish o) :=
  { h with outcomes := congrArg (· ++ [o]) h.outcomes }

theorem SameButStaleCells.commitFrame (h : SameButStaleCells s s') (u l : Nat) :
    SameButStaleCells (s.commitFrame u l) (s'.commitFrame u l) := by
  have hcommit : SameButStaleCells
      (s.commit (clampUpper s.cfg.toConfig u) (clampLower s.cfg.toConfig l))
      (s'.commit (clampUpper s'.cfg.toConfig u) (clampLower s'.cfg.toConfig l)) :=
    { h with pwm := by simp [h.cfg] }
  exact hcommit.clearFrame.finish .committed

theorem SameButStaleCells.respond (h : SameButStaleCells s s') (r : ReadResponse) :
    SameButStaleCells (s.respond r) (s'.respond r) :=
  { h with responses := congrArg (· ++ [r]) h.responses }

theorem SameButStaleCells.clearAll (h : SameButStaleCells s s') : SameButStaleCells s.clearAll s'.clearAll :=
  { h with count := rfl, ovf := rfl, cells := fun _ _ => rfl, pwm := rfl }

theorem SameButStaleCells.takeWord (h : SameButStaleCells s s') : SameButStaleCells s.takeWord s'.takeWord :=
  { h with input := congrArg List.tail h.input }

/-- RXEND reads the frame's cells and no stale one. -/
theorem SameButStaleCells.frameBytes_eq (h : SameButStaleCells s s') : s.frameBytes = s'.frameBytes :=
  State.frameBytes_congr h.cfg h.count h.cells

end StaleCells

/-- Two outcomes of one kind and alike: states that differ in stale cells only, or the same reason to stop. -/
inductive AlikeOutcomes : Host.Outcome State Fault Refusal → Host.Outcome State Fault Refusal → Prop where
  | next {t t' : State} (h : SameButStaleCells t t') : AlikeOutcomes (.next t) (.next t')
  | fault (f : Fault) : AlikeOutcomes (.fault f) (.fault f)
  | refused (r : Refusal) : AlikeOutcomes (.refused r) (.refused r)

theorem AlikeOutcomes.exists_next {t : State} {o : Host.Outcome State Fault Refusal}
    (h : AlikeOutcomes (.next t) o) : ∃ t', o = .next t' ∧ SameButStaleCells t t' := by
  cases h with
  | next ht => exact ⟨_, rfl, ht⟩

theorem AlikeOutcomes.eq_fault {f : Fault} {o : Host.Outcome State Fault Refusal} (h : AlikeOutcomes (.fault f) o) :
    o = .fault f := by
  cases h
  rfl

theorem AlikeOutcomes.eq_refused {r : Refusal} {o : Host.Outcome State Fault Refusal}
    (h : AlikeOutcomes (.refused r) o) : o = .refused r := by
  cases h
  rfl

/-- RXEND tests `ovf`, then the frame's bytes, then their parse: the same in both states. -/
theorem SameButStaleCells.alike_rxend {s s' : State} (h : SameButStaleCells s s') :
    AlikeOutcomes (exec .rxend s) (exec .rxend s') := by
  cases ho : s.ovf with
  | true =>
    rw [exec_rxend_of_ovf ho, exec_rxend_of_ovf (h.ovf ▸ ho)]
    exact .next (h.clearFrame.finish _)
  | false =>
    have ho' : s'.ovf = false := h.ovf ▸ ho
    cases hb : s.frameBytes with
    | error f =>
      rw [exec_rxend_of_error ho hb, exec_rxend_of_error ho' (h.frameBytes_eq ▸ hb)]
      exact .fault f
    | ok bs =>
      have hb' : s'.frameBytes = .ok bs := h.frameBytes_eq ▸ hb
      cases hp : parse s.cfg.toConfig bs with
      | err r =>
        rw [exec_rxend_of_err ho hb hp, exec_rxend_of_err ho' hb' (h.cfg ▸ hp)]
        exact .next (h.clearFrame.finish _)
      | ok u l =>
        rw [exec_rxend_of_ok ho hb hp, exec_rxend_of_ok ho' hb' (h.cfg ▸ hp)]
        exact .next (h.commitFrame u l)

theorem SameButStaleCells.alike_read {s s' : State} (h : SameButStaleCells s s') :
    AlikeOutcomes (exec .read s) (exec .read s') := by
  cases ha : s.pwm.answer with
  | error f =>
    rw [exec_read_of_error ha, exec_read_of_error (h.pwm ▸ ha)]
    exact .fault f
  | ok r =>
    rw [exec_read_of_answer ha, exec_read_of_answer (h.pwm ▸ ha)]
    exact .next (h.respond r)

/-- No transaction reads a stale cell. -/
theorem SameButStaleCells.alike_exec {s s' : State} (h : SameButStaleCells s s') (i : Instr) :
    AlikeOutcomes (exec i s) (exec i s') := by
  cases i with
  | rxb b => exact .next ((h.emitEcho b).sinkByte b)
  | rxend => exact h.alike_rxend
  | read => exact h.alike_read
  | reset => exact .next h.clearAll

/-- No step reads a stale cell. -/
theorem SameButStaleCells.alike_step {s s' : State} (h : SameButStaleCells s s') :
    AlikeOutcomes (step s) (step s') := by
  cases hi : s.input with
  | nil =>
    rw [step_of_idle hi, step_of_idle (h.input ▸ hi)]
    exact .next h
  | cons w rest =>
    have hi' : s'.input = w :: rest := h.input ▸ hi
    cases hd : decode w with
    | error e =>
      rw [step_of_decode_error hi hd, step_of_decode_error hi' hd]
      exact .refused _
    | ok i =>
      rw [step_of_decode_ok hi hd, step_of_decode_ok hi' hd]
      exact h.takeWord.alike_exec i

/-- Settles O45: the relation is kept by every operation, and every test a step makes comes out the same. -/
theorem staleCellsAreNeverRead : Obligations.StaleCellsAreNeverRead := by
  intro s s' h
  have halike := h.alike_step
  exact ⟨fun _ ht => (ht ▸ halike).exists_next, fun _ hf => (hf ▸ halike).eq_fault,
    fun _ hr => (hr ▸ halike).eq_refused⟩

/-! ### Widths (10_state.md R17, R28) -/

/-- A width of `clog2 (n + 1)` holds every value up to `n`. -/
theorem lt_two_pow_clog2_succ {v n : Nat} (h : v ≤ n) : v < 2 ^ clog2 (n + 1) :=
  Nat.lt_of_lt_of_le (Nat.lt_succ_of_le h) (le_two_pow_clog2 (n + 1))

/-- A duty is less than a whole period, for an angle below the divisor (43_pwm_mapper.md R84). -/
theorem duty_lt_periodTicks {c : Config} {a : Nat} (ha : a < c.dutyDiv) (hp : 0 < periodTicks c) :
    duty c a < periodTicks c :=
  Nat.div_lt_of_lt_mul (Nat.mul_lt_mul_of_pos_right ha hp)

/-- A legal configuration has a period of at least one tick (00_scope.md R10). -/
theorem periodTicks_pos (c : LegalConfig) : 0 < periodTicks c.toConfig := by
  obtain ⟨-, -, -, -, -, -, -, hclk, -⟩ := c.facts
  unfold periodTicks
  omega

/-- Where R24 holds, a register that holds an angle holds one within its window's upper end. -/
theorem PwmState.Inv.angle_le {c : Config} {p : PwmState} (h : p.Inv c) {v : Nat}
    (hv : p.angUpper = some v ∨ p.angLower = some v) : v ≤ max c.upperMax c.lowerMax := by
  cases hval : p.valid with
  | false =>
    obtain ⟨hu, hl, -, -⟩ := h.uncommitted hval
    simp [hu, hl] at hv
  | true =>
    obtain ⟨u, l, hu, -, huMax, hl, -, hlMax, -, -⟩ := h.committed hval
    simp only [hu, hl, Option.some.injEq] at hv
    omega

/-- Where R24 holds, a register that holds a duty holds that of an angle within its window's upper end. -/
theorem PwmState.Inv.exists_angle_of_duty {c : Config} {p : PwmState} (h : p.Inv c) {v : Nat}
    (hv : p.dutyUpper = some v ∨ p.dutyLower = some v) :
    ∃ a, v = duty c a ∧ (a ≤ c.upperMax ∨ a ≤ c.lowerMax) := by
  cases hval : p.valid with
  | false =>
    obtain ⟨-, -, hu, hl⟩ := h.uncommitted hval
    simp [hu, hl] at hv
  | true =>
    obtain ⟨u, l, -, -, huMax, -, -, hlMax, hdu, hdl⟩ := h.committed hval
    simp only [hdu, hdl, Option.some.injEq] at hv
    rcases hv with rfl | rfl
    · exact ⟨u, rfl, .inl huMax⟩
    · exact ⟨l, rfl, .inr hlMax⟩

/-- The accumulator of `Digits` stays within FIELD_MAX (41_frame_parser.md R67). -/
theorem digitsFrom_le_fieldMax {c : Config} (s : List Byte) {v : Nat} (hv : v ≤ c.fieldMax) :
    (digitsFrom c v s).1 ≤ c.fieldMax := by
  induction s generalizing v with
  | nil => exact hv
  | cons b s ih =>
    rw [digitsFrom]
    split
    · exact ih (Nat.min_le_right _ _)
    · exact hv

theorem digits_le_fieldMax (c : Config) (s : List Byte) : (digits c s).1 ≤ c.fieldMax :=
  digitsFrom_le_fieldMax s (Nat.zero_le _)

theorem parseLower_eq_ok {c : Config} {v u l : Nat} {s : List Byte} (h : parseLower c v s = .ok u l) :
    u = v ∧ l ≤ c.fieldMax := by
  cases s with
  | nil => cases h
  | cons sep s =>
    simp only [parseLower] at h
    split at h <;> cases h
    exact ⟨rfl, digits_le_fieldMax c s⟩

/-- Both fields of a parsed frame are results of `Digits`, so neither passes FIELD_MAX. -/
theorem parse_fields_le {c : Config} {bytes : List Byte} {u l : Nat} (h : parse c bytes = .ok u l) :
    u ≤ c.fieldMax ∧ l ≤ c.fieldMax := by
  cases bytes with
  | nil => cases h
  | cons b s =>
    simp only [parse, parseFields] at h
    split at h
    · split at h
      · cases h
      · obtain ⟨rfl, hl⟩ := parseLower_eq_ok h
        exact ⟨digits_le_fieldMax c _, hl⟩
    · cases h

/-- Settles O8: the invariant bounds each register by a parameter, and the parameter's width holds the bound. -/
theorem valuesFitTheirWidths : Obligations.ValuesFitTheirWidths := by
  refine ⟨fun s h => ⟨lt_two_pow_clog2_succ h.frame.1, fun v hv => lt_two_pow_clog2_succ (h.pwm.angle_le hv),
    fun v hv => ?_⟩, fun c bytes u l hp => ?_⟩
  · obtain ⟨-, -, -, -, hud, hld, -, -, hw⟩ := s.cfg.facts
    obtain ⟨a, rfl, ha⟩ := h.pwm.exists_angle_of_duty hv
    have hlt : duty s.cfg.toConfig a < periodTicks s.cfg.toConfig :=
      duty_lt_periodTicks (by omega) (periodTicks_pos s.cfg)
    exact ⟨hlt, hlt.trans hw⟩
  · obtain ⟨hu, hl⟩ := parse_fields_le hp
    exact ⟨hu, hl, lt_two_pow_clog2_succ hu, lt_two_pow_clog2_succ hl⟩

/-! ### A burst of bytes -/

/-- The state after a burst: `RXB`'s effect for each byte in turn (`execAll_receive`). -/
def State.receive (s : State) (bytes : List Byte) : State := bytes.foldl (fun s b => (s.emitEcho b).sinkByte b) s

theorem execAll_receive (bytes : List Byte) (s : State) : execAll (bytesTxns bytes) s = .next (s.receive bytes) :=
  execAll_bytesTxns bytes s

section Burst

variable (s : State) (bytes : List Byte)

@[simp] theorem State.receive_nil : s.receive [] = s := rfl

@[simp] theorem State.receive_snoc (b : Byte) :
    s.receive (bytes ++ [b]) = ((s.receive bytes).emitEcho b).sinkByte b := by
  simp [State.receive]

variable {s bytes} in
/-- What no byte changes, no burst changes. -/
theorem State.receive_keeps {α : Type} {f : State → α} (hf : ∀ s b, f ((s.emitEcho b).sinkByte b) = f s) :
    f (s.receive bytes) = f s := by
  induction bytes using List.reverseRecOn with
  | nil => rfl
  | append_singleton bytes b ih => rw [State.receive_snoc, hf, ih]

@[simp] theorem State.receive_cfg : (s.receive bytes).cfg = s.cfg := State.receive_keeps (by simp)
@[simp] theorem State.receive_pwm : (s.receive bytes).pwm = s.pwm := State.receive_keeps (by simp)
@[simp] theorem State.receive_outcomes : (s.receive bytes).outcomes = s.outcomes := State.receive_keeps (by simp)
@[simp] theorem State.receive_responses : (s.receive bytes).responses = s.responses := State.receive_keeps (by simp)
@[simp] theorem State.receive_input : (s.receive bytes).input = s.input := State.receive_keeps (by simp)

end Burst

/-- A burst from `count = 0` is stored up to the capacity (10_state.md R21). -/
theorem State.receive_count {s : State} (h : s.count = 0) (bytes : List Byte) :
    (s.receive bytes).count = min bytes.length s.cfg.bufCap := by
  induction bytes using List.reverseRecOn with
  | nil => simp [h]
  | append_singleton bytes b ih =>
    simp only [State.receive_snoc, State.sinkByte_count, State.emitEcho_count, State.emitEcho_cfg,
      State.receive_cfg, ih, List.length_append, List.length_singleton]
    split <;> omega

/-- A burst from `count = 0` leaves its first BUF_CAP bytes as the frame's (20_memory.md R37). -/
theorem State.receive_frameBytes {s : State} (h : s.count = 0) (bytes : List Byte) :
    (s.receive bytes).frameBytes = .ok (bytes.take s.cfg.bufCap) := by
  induction bytes using List.reverseRecOn with
  | nil => simpa using State.frameBytes_of_empty h
  | append_singleton bytes b ih =>
    have hstore := State.frameBytes_sinkByte b (((s.receive bytes).frameBytes_emitEcho b).trans ih)
    simp only [State.emitEcho_count, State.emitEcho_cfg, State.receive_cfg, State.receive_count h] at hstore
    rw [State.receive_snoc, hstore]
    by_cases hlt : bytes.length < s.cfg.bufCap
    · rw [if_pos (by omega), List.take_of_length_le (by omega), List.take_of_length_le (by simp; omega)]
    · rw [if_neg (by omega), List.take_append_of_le_length (by omega)]

/-- A burst writes no cell at or above the `count` it ends with (10_state.md R20). -/
theorem State.cell_receive_of_count_le (s : State) (bytes : List Byte) {i : Nat} (hi : (s.receive bytes).count ≤ i) :
    (s.receive bytes).cell i = s.cell i := by
  induction bytes using List.reverseRecOn with
  | nil => rfl
  | append_singleton bytes b ih =>
    rw [State.receive_snoc] at hi ⊢
    have hle : (s.receive bytes).count ≤ i := by
      rw [State.sinkByte_count, State.emitEcho_count] at hi
      split at hi <;> omega
    rw [State.cell_sinkByte_of_count_le _ b hi, State.cell_emitEcho, ih hle]

/-- Settles O15: by induction on the burst, byte by byte from its end. -/
theorem burstFillsTheBufferInArrivalOrder : Obligations.BurstFillsTheBufferInArrivalOrder := by
  rintro bytes s ⟨hempty, -⟩
  have hcount := State.receive_count hempty bytes
  have hframe := State.receive_frameBytes hempty bytes
  obtain ⟨-, -, hcells⟩ := State.frameBytes_eq_ok hframe
  refine ⟨s.receive bytes, execAll_receive bytes s, hcount, fun i hi => ?_, hframe,
    fun i hi => State.cell_receive_of_count_le s bytes hi, by simp, by simp, by simp, by simp, by simp⟩
  rw [hcells i hi, List.getElem?_take_of_lt (by omega)]

/-! ### READ and the frame in flight (10_state.md R30) -/

/-- The answer a READ gave is that of PwmState. -/
theorem answer_of_read {s t : State} {r : ReadResponse} (h : exec .read s = .next t)
    (hr : t.responses = s.responses ++ [r]) : s.pwm.answer = .ok r := by
  obtain ⟨r', ha, rfl⟩ := exec_read_cases h
  have : r' = r := by simpa using hr
  exact this ▸ ha

/-- Settles O35: READ's answer is a function of PwmState, which neither bytes nor a READ change. -/
theorem readSeesNothingOfTheFrameInFlight : Obligations.ReadSeesNothingOfTheFrameInFlight := by
  constructor
  · intro bytes s t r h hr
    have hfirst : s.pwm.answer = .ok r := answer_of_read h hr
    have hsecond : ((s.respond r).receive bytes).pwm.answer = .ok r := by simpa using hfirst
    refine ⟨((s.respond r).receive bytes).respond r, ?_, by simp⟩
    simp [execAll_append, execAll, exec_read_of_answer hfirst, execAll_receive, exec_read_of_answer hsecond]
  · intro s s' t hpwm h
    obtain ⟨r, ha, rfl⟩ := exec_read_cases h
    exact ⟨r, s'.respond r, rfl, exec_read_of_answer (hpwm ▸ ha), rfl⟩

/-! ### Elements with no value (10_state.md R32) -/

/-- With `valid = 1` beside a register with no value, the snapshot names such a register. -/
theorem PwmState.answer_of_missing {p : PwmState} (hv : p.valid = true)
    (h : p.angUpper = none ∨ p.angLower = none ∨ p.dutyUpper = none ∨ p.dutyLower = none) :
    ∃ e, p.answer = .error (.noValue e) := by
  simp only [PwmState.answer, hv, Bool.true_eq_false, if_false]
  split
  · rename_i h1 h2 h3 h4
    simp [h1, h2, h3, h4] at h
  all_goals exact ⟨_, rfl⟩

/-- A read over existing cells stops at the first one with no value. -/
theorem State.readBytes_of_missing {s : State} {k : Nat} (hk : s.cell k = none) :
    ∀ {n i : Nat}, i + n ≤ s.cfg.bufCap → i ≤ k → k < i + n →
      ∃ j, j ≤ k ∧ s.cell j = none ∧ s.readBytes n i = .error (.noValue (.bufCell j))
  | 0, i, _, hik, hki => absurd hik (by omega)
  | n + 1, i, hcap, hik, hki => by
    have hlt : i < s.cfg.bufCap := by omega
    cases hi : s.cell i with
    | none =>
      have hread := State.readCell_eq_error_iff.mpr (.inl ⟨hlt, hi, rfl⟩)
      exact ⟨i, hik, hi, by simp [State.readBytes, hread]⟩
    | some b =>
      have hne : i ≠ k := by rintro rfl; simp [hk] at hi
      obtain ⟨j, hjk, hj, hrest⟩ :=
        State.readBytes_of_missing hk (n := n) (i := i + 1) (by omega) (by omega) (by omega)
      have hread := State.readCell_eq_ok_iff.mpr ⟨hlt, hi⟩
      exact ⟨j, hjk, hj, by simp [State.readBytes, hread, hrest]⟩

/-- Settles O36: READ stops at a register with no value, RXEND at the frame's first cell with none. -/
theorem noValueIsNeverSupplied : Obligations.NoValueIsNeverSupplied := by
  constructor
  · intro s hv hmissing
    obtain ⟨e, he⟩ := PwmState.answer_of_missing hv hmissing
    exact ⟨e, exec_read_of_error he⟩
  · intro s i ho hcap hi hcell
    obtain ⟨j, hji, hj, hread⟩ :=
      State.readBytes_of_missing hcell (n := s.count) (i := 0) (by omega) (Nat.zero_le i) (by omega)
    exact ⟨j, hji, hj, exec_rxend_of_error ho hread⟩

/-! ### The flag `ovf` (10_state.md R22) -/

/-- The sink's other effects do not depend on `ovf`. -/
theorem State.sinkByte_of_ovf (s : State) (b : Byte) (x : Bool) :
    ∃ y, State.sinkByte { s with ovf := x } b = { s.sinkByte b with ovf := y } := by
  by_cases h : s.count < s.cfg.bufCap
  · exact ⟨x, by rw [State.sinkByte_of_lt s b h]; exact State.sinkByte_of_lt { s with ovf := x } b h⟩
  · exact ⟨true, by rw [State.sinkByte_of_not_lt s b h]; exact State.sinkByte_of_not_lt { s with ovf := x } b h⟩

/-- RXEND always leaves `ovf` clear (44_frame_end.md R90). -/
theorem ovf_of_rxend {s t : State} (h : exec .rxend s = .next t) : t.ovf = false := by
  rcases exec_rxend_cases h with ⟨-, rfl⟩ | ⟨-, _, _, -, -, rfl⟩ | ⟨-, _, _, _, -, -, rfl⟩ <;> rfl

/-- READ keeps `ovf` (45_snapshot_read.md R97). -/
theorem ovf_of_read {s t : State} (h : exec .read s = .next t) : t.ovf = s.ovf := by
  obtain ⟨r, -, rfl⟩ := exec_read_cases h
  rfl

theorem ovf_set_only_by_full_buffer {i : Instr} {s t : State} (h : exec i s = .next t) (hs : s.ovf = false)
    (ht : t.ovf = true) : (∃ b, i = .rxb b) ∧ s.cfg.bufCap ≤ s.count := by
  cases i with
  | rxb b =>
    cases h
    refine ⟨⟨b, rfl⟩, Nat.le_of_not_lt fun hlt => ?_⟩
    simp [State.sinkByte_ovf, hlt, hs] at ht
  | rxend => simp [ovf_of_rxend h] at ht
  | read => simp [ovf_of_read h, hs] at ht
  | reset => cases h; cases ht

theorem ovf_cleared_only_by_rxend_or_reset {i : Instr} {s t : State} (h : exec i s = .next t) (hs : s.ovf = true)
    (ht : t.ovf = false) : i = .rxend ∨ i = .reset := by
  cases i with
  | rxb b => cases h; simp [State.sinkByte_ovf, hs] at ht
  | rxend => exact .inl rfl
  | read => simp [ovf_of_read h, hs] at ht
  | reset => exact .inr rfl

theorem ovf_read_only_by_rxend {i : Instr} {s t : State} (hi : i ≠ .rxend) (h : exec i s = .next t) (x : Bool) :
    ∃ y, exec i { s with ovf := x } = .next { t with ovf := y } := by
  cases i with
  | rxb b =>
    cases h
    obtain ⟨y, hy⟩ := (s.emitEcho b).sinkByte_of_ovf b x
    exact ⟨y, congrArg Host.Outcome.next hy⟩
  | rxend => exact absurd rfl hi
  | read =>
    obtain ⟨r, ha, rfl⟩ := exec_read_cases h
    exact ⟨x, exec_read_of_answer (s := { s with ovf := x }) ha⟩
  | reset => cases h; exact ⟨false, rfl⟩

/-- Settles O40: the three facts above. -/
theorem overflowFlagLife : Obligations.OverflowFlagLife :=
  ⟨fun _ _ _ h hs ht => ovf_set_only_by_full_buffer h hs ht,
    fun _ _ _ h hs ht => ovf_cleared_only_by_rxend_or_reset h hs ht,
    fun _ _ _ x hi h => ovf_read_only_by_rxend hi h x⟩

end Sys2Proof.Machine
end

/-! PROOF. The memory family (spec/20_memory.md): what each transaction leaves unchanged (R39), the frame as the last
bytes echoed (R37), and transactions taking effect in their total order (R40). -/

namespace Sys2Proof.Machine

/-! ### What each transaction leaves unchanged (20_memory.md R39) -/

/-- No transaction writes the configuration (10_state.md R26) or the transactions pending behind it. -/
theorem exec_keeps_cfg_and_input {i : Instr} {s t : State} (h : exec i s = .next t) :
    t.cfg = s.cfg ∧ t.input = s.input := by
  cases i with
  | rxb b => cases h; simp
  | rxend =>
    rcases exec_rxend_cases h with ⟨-, rfl⟩ | ⟨-, _, _, -, -, rfl⟩ | ⟨-, _, _, _, -, -, rfl⟩ <;> exact ⟨rfl, rfl⟩
  | read => obtain ⟨_, -, rfl⟩ := exec_read_cases h; exact ⟨rfl, rfl⟩
  | reset => cases h; exact ⟨rfl, rfl⟩

/-- The store case writes the cell at the write index and no other (40_byte_sink.md R59). -/
theorem State.cell_sinkByte_of_lt {s : State} (b : Byte) (hlt : s.count < s.cfg.bufCap) {a : Nat}
    (ha : a ≠ s.count) : (s.sinkByte b).cell a = s.cell a := by
  rw [State.sinkByte_of_lt s b hlt, State.cell_appendByte_other s b ha]

/-- The full case writes no cell (40_byte_sink.md R60). -/
theorem State.cell_sinkByte_of_not_lt {s : State} (b : Byte) (hfull : ¬ s.count < s.cfg.bufCap) (a : Nat) :
    (s.sinkByte b).cell a = s.cell a := by
  rw [State.sinkByte_of_not_lt s b hfull]
  rfl

/-- RXEND empties the frame (44_frame_end.md R91). -/
theorem count_of_rxend {s t : State} (h : exec .rxend s = .next t) : t.count = 0 := by
  rcases exec_rxend_cases h with ⟨-, rfl⟩ | ⟨-, _, _, -, -, rfl⟩ | ⟨-, _, _, _, -, -, rfl⟩ <;> rfl

/-- RXEND emits no byte, answers nothing and erases no cell; only a commit writes PwmState. -/
theorem rxend_frame {s t : State} (h : exec .rxend s = .next t) :
    t.echo = s.echo ∧ t.responses = s.responses ∧ (∀ a, t.cell a = s.cell a) ∧
    (t.outcomes ≠ s.outcomes ++ [.committed] → t.pwm = s.pwm) := by
  rcases exec_rxend_cases h with ⟨-, rfl⟩ | ⟨-, _, _, -, -, rfl⟩ | ⟨-, _, _, _, -, -, rfl⟩
  · exact ⟨rfl, rfl, fun _ => rfl, fun _ => rfl⟩
  · exact ⟨rfl, rfl, fun _ => rfl, fun _ => rfl⟩
  · exact ⟨rfl, rfl, fun _ => rfl, fun hne => absurd rfl hne⟩

/-- Settles O37: the frame of each transaction, from what it can do. -/
theorem transactionsTouchOnlyTheirOwnElements : Obligations.TransactionsTouchOnlyTheirOwnElements := by
  intro i s t h
  obtain ⟨hcfg, hinput⟩ := exec_keeps_cfg_and_input h
  refine ⟨hcfg, hinput, ?_⟩
  cases i with
  | rxb b =>
    cases h
    refine ⟨by simp, by simp, by simp, State.pwmLine_congr (by simp) (by simp), fun hlt => ⟨?_, fun a ha => ?_⟩,
      fun hfull => ⟨?_, fun a => ?_⟩⟩
    · simp [State.sinkByte_ovf, hlt]
    · exact State.cell_sinkByte_of_lt (s := s.emitEcho b) b hlt ha
    · simp [State.sinkByte_count, hfull]
    · exact State.cell_sinkByte_of_not_lt (s := s.emitEcho b) b hfull a
  | rxend => exact rxend_frame h
  | read =>
    obtain ⟨r, -, rfl⟩ := exec_read_cases h
    exact ⟨fun _ => rfl, rfl, rfl, rfl, rfl, rfl, fun _ => rfl⟩
  | reset =>
    cases h
    exact ⟨rfl, rfl, rfl⟩

/-! ### The frame and the last bytes echoed (20_memory.md R37) -/

/-- The relation speaks of `ovf`, the frame's bytes and the echo only. -/
theorem State.FrameIsLastEcho.congr {s t : State} (h : s.FrameIsLastEcho) (hovf : t.ovf = s.ovf)
    (hframe : t.frameBytes = s.frameBytes) (hecho : t.echo = s.echo) : t.FrameIsLastEcho := by
  simpa [State.FrameIsLastEcho, hovf, hframe, hecho] using h

/-- An empty frame is the end of any echo. -/
theorem State.FrameIsLastEcho.of_empty {s : State} (h : s.count = 0) : s.FrameIsLastEcho := fun _ =>
  ⟨[], s.echo, State.frameBytes_of_empty h, (List.append_nil _).symm⟩

/-- A byte stored is also the byte echoed; a byte not stored sets `ovf` (40_byte_sink.md R58). -/
theorem State.FrameIsLastEcho.rxb {s : State} (h : s.FrameIsLastEcho) (b : Byte) :
    ((s.emitEcho b).sinkByte b).FrameIsLastEcho := by
  intro ho
  by_cases hlt : s.count < s.cfg.bufCap
  · have hovf : s.ovf = false := by simpa [State.sinkByte_ovf, hlt] using ho
    obtain ⟨bytes, before, hframe, hecho⟩ := h hovf
    have hstored := State.frameBytes_sinkByte b ((s.frameBytes_emitEcho b).trans hframe)
    exact ⟨bytes ++ [b], before, by simpa [hlt] using hstored, by simp [hecho]⟩
  · simp [State.sinkByte_ovf, hlt] at ho

/-- Every transaction keeps the frame equal to the last bytes echoed. -/
theorem State.FrameIsLastEcho.of_exec {s t : State} (h : s.FrameIsLastEcho) {i : Instr} (he : exec i s = .next t) :
    t.FrameIsLastEcho := by
  cases i with
  | rxb b => cases he; exact h.rxb b
  | rxend => exact .of_empty (count_of_rxend he)
  | read =>
    obtain ⟨r, -, rfl⟩ := exec_read_cases he
    exact h.congr rfl (s.frameBytes_respond r) rfl
  | reset => cases he; exact .of_empty rfl

/-- Settles O44: a step idles or runs one transaction, and every transaction keeps the relation, in states outside the
invariant too. -/
theorem stepKeepsTheFrameEqualToTheLastEcho : Obligations.StepKeepsTheFrameEqualToTheLastEcho := by
  intro s t _ h hs
  rcases step_cases hs with ⟨-, rfl⟩ | ⟨w, rest, i, -, -, he⟩
  · exact h
  · have htaken : State.FrameIsLastEcho { s with input := rest } := h.congr rfl (s.frameBytes_withInput rest) rfl
    exact htaken.of_exec he

/-! ### Transactions in their total order (20_memory.md R40) -/

/-- The decoder reads every transaction back from its word (30_encoding.md R49). -/
theorem decode_encode (i : Instr) : decode (encode i) = .ok i := by
  cases i with
  | rxb b =>
    have hkind : TxnWord.kind (0b00#2 ++ b) = 0b00#2 := BitVec.extractLsb'_append_eq_left
    have hdata : TxnWord.data (0b00#2 ++ b) = b := BitVec.extractLsb'_append_eq_right
    simp [encode, decode, hkind, hdata]
  | rxend => rfl
  | read => rfl
  | reset => rfl

/-- The sink does not look at the pending input. -/
theorem State.sinkByte_withInput (s : State) (b : Byte) (ws : List TxnWord) :
    State.sinkByte { s with input := ws } b = { s.sinkByte b with input := ws } := by
  by_cases h : s.count < s.cfg.bufCap
  · rw [State.sinkByte_of_lt s b h]; exact State.sinkByte_of_lt { s with input := ws } b h
  · rw [State.sinkByte_of_not_lt s b h]; exact State.sinkByte_of_not_lt { s with input := ws } b h

/-- A transaction completes alike whatever is pending behind it. -/
theorem exec_withInput_next {i : Instr} {s t : State} (h : exec i s = .next t) (ws : List TxnWord) :
    exec i { s with input := ws } = .next { t with input := ws } := by
  cases i with
  | rxb b => cases h; exact congrArg Host.Outcome.next ((s.emitEcho b).sinkByte_withInput b ws)
  | rxend =>
    have hframe := s.frameBytes_withInput ws
    rcases exec_rxend_cases h with ⟨ho, rfl⟩ | ⟨ho, _, _, hb, hp, rfl⟩ | ⟨ho, _, _, _, hb, hp, rfl⟩
    · exact exec_rxend_of_ovf (s := { s with input := ws }) ho
    · exact exec_rxend_of_err (s := { s with input := ws }) ho (hframe.trans hb) hp
    · exact exec_rxend_of_ok (s := { s with input := ws }) ho (hframe.trans hb) hp
  | read =>
    obtain ⟨r, ha, rfl⟩ := exec_read_cases h
    exact exec_read_of_answer (s := { s with input := ws }) ha
  | reset => cases h; rfl

/-- A transaction faults alike whatever is pending behind it. -/
theorem exec_withInput_fault {i : Instr} {s : State} {f : Fault} (h : exec i s = .fault f) (ws : List TxnWord) :
    exec i { s with input := ws } = .fault f := by
  rcases exec_eq_fault h with ⟨rfl, ho, hf⟩ | ⟨rfl, hf⟩
  · exact exec_rxend_of_error (s := { s with input := ws }) ho ((s.frameBytes_withInput ws).trans hf)
  · exact exec_read_of_error (s := { s with input := ws }) hf

/-- A run goes on from the state its first step leaves. -/
theorem run_succ_of_next {M : Host.Core} {s t : M.State} (h : M.step s = .next t) (k : Nat) :
    M.run (k + 1) s = M.run k t := by
  rw [Host.Core.run, h]

/-- A run ends where its first step faults. -/
theorem run_succ_of_fault {M : Host.Core} {s : M.State} {f : M.Fault} (h : M.step s = .fault f) (k : Nat) :
    M.run (k + 1) s = .fault f := by
  rw [Host.Core.run, h]

/-- Transactions go on from the state the first one leaves. -/
theorem execAll_cons_of_next {i : Instr} {s t : State} (h : exec i s = .next t) (is : List Instr) :
    execAll (i :: is) s = execAll is t := by
  simp [execAll, h]

/-- Transactions end where the first one faults. -/
theorem execAll_cons_of_fault {i : Instr} {s : State} {f : Fault} (h : exec i s = .fault f) (is : List Instr) :
    execAll (i :: is) s = .fault f := by
  simp [execAll, h]

/-- Settles O6, by induction on the transactions: a step takes the front word, which decodes to the front transaction,
and that transaction does not look at the words behind it. -/
theorem deliveredWordsRunInTheirOrder : Obligations.DeliveredWordsRunInTheirOrder := by
  intro is rest
  induction is with
  | nil =>
    rintro s rfl
    rfl
  | cons i is ih =>
    intro s hs
    have hstep : step s = exec i s.takeWord := step_of_decode_ok hs (decode_encode i)
    cases he : exec i s.takeWord with
    | next t =>
      have hpending : t.input = is.map encode ++ rest :=
        (exec_keeps_cfg_and_input he).2.trans (congrArg List.tail hs)
      have hrun : core.run (is.length + 1) s = core.run is.length t := run_succ_of_next (M := core) (hstep.trans he) _
      have hall : execAll (i :: is) { s with input := rest } = execAll is { t with input := rest } :=
        execAll_cons_of_next (exec_withInput_next he rest) is
      exact hrun.trans ((ih t hpending).trans hall.symm)
    | fault f =>
      have hrun : core.run (is.length + 1) s = .fault f := run_succ_of_fault (M := core) (hstep.trans he) _
      have hall : execAll (i :: is) { s with input := rest } = .fault f :=
        execAll_cons_of_fault (exec_withInput_fault he rest) is
      exact hrun.trans hall.symm
    | refused r => exact absurd he (exec_ne_refused i s.takeWord r)

end Sys2Proof.Machine

/-! PROOF. The encoding family (spec/30_encoding.md): the reserved words (R50), the classes of a byte (R51), and the
frames of the grammar as exactly those Parse accepts (R53 to R55). -/

namespace Sys2Proof.Machine

/-! ### Reserved words (30_encoding.md R50) -/

/-- Every kind but RXB's. -/
theorem mem_kinds_iff_ne_zero (k : BitVec 2) : k ∈ [0b01#2, 0b10#2, 0b11#2] ↔ k ≠ 0b00#2 := by
  revert k
  decide

/-- The decoder rejects the words whose kind is not RXB's and whose data is not zero, under these two parts. -/
theorem decode_eq_error {w : TxnWord} (hkind : TxnWord.kind w ≠ 0b00#2) (hdata : TxnWord.data w ≠ 0x00#8) :
    decode w = .error (.reservedEncoding (TxnWord.kind w) (TxnWord.data w)) := by
  simp [decode, hkind, hdata]

/-- The decoder answers an operation for a word of RXB's kind or of zero data, and for no other. -/
theorem exists_decode_eq_ok_iff (w : TxnWord) :
    (∃ i, decode w = .ok i) ↔ ¬ (TxnWord.kind w ≠ 0b00#2 ∧ TxnWord.data w ≠ 0x00#8) := by
  constructor
  · rintro ⟨i, hi⟩ ⟨hkind, hdata⟩
    cases hi.symm.trans (decode_eq_error hkind hdata)
  · intro h
    cases hd : decode w with
    | ok i => exact ⟨i, rfl⟩
    | error e =>
      have hreserved : TxnWord.wf w = false := wf_eq_false_of_decode_error hd
      obtain ⟨hkind, hdata⟩ := Bool.or_eq_false_iff.mp hreserved
      exact absurd ⟨beq_eq_false_iff_ne.mp hkind, beq_eq_false_iff_ne.mp hdata⟩ h

/-- Settles O3: the decoder rejects exactly the reserved words, and a step refuses a word the decoder rejects. -/
theorem reservedWordsAreRefused : Obligations.ReservedWordsAreRefused := by
  constructor
  · intro w
    rw [mem_kinds_iff_ne_zero]
    exact exists_decode_eq_ok_iff w
  · intro w rest s hs hkind hdata
    exact step_of_decode_error hs (decode_eq_error ((mem_kinds_iff_ne_zero _).mp hkind) hdata)

/-! ### Byte classes (30_encoding.md R51) -/

theorem isDigit_eq_true_iff (b : Byte) : isDigit b = true ↔ 0x30 ≤ b.toNat ∧ b.toNat ≤ 0x39 := by
  simp [isDigit]

/-- The digits by the two match and mask rows: 0x30..0x37 and 0x38..0x39. -/
theorem isDigit_eq_true_iff_mask (b : Byte) :
    isDigit b = true ↔ b &&& 0xF8#8 = 0x30#8 ∨ b &&& 0xFE#8 = 0x38#8 := by
  revert b
  decide

theorem classify_eq_digit_iff (c : Config) (b : Byte) : classify c b = .digit ↔ isDigit b = true := by
  unfold classify
  split
  · simp [*]
  · split <;> simp [*]

theorem classify_eq_marker_iff (c : Config) (b : Byte) :
    classify c b = .marker ↔ isDigit b = false ∧ b = c.marker := by
  unfold classify isMarker
  split
  · simp [*]
  · split <;> simp_all

theorem classify_eq_other_iff (c : Config) (b : Byte) :
    classify c b = .other ↔ isDigit b = false ∧ b ≠ c.marker := by
  unfold classify isMarker
  split
  · simp [*]
  · split <;> simp_all

/-- Settles O4: the three classes are the digits, the marker among the rest, and what then remains. -/
theorem byteClassesPartitionTheBytes : Obligations.ByteClassesPartitionTheBytes := by
  intro c b hmarker
  have hnoDigit : isDigit b = false ↔ ¬ (0x30 ≤ b.toNat ∧ b.toNat ≤ 0x39) := by
    rw [← isDigit_eq_true_iff, Bool.not_eq_true]
  have hvalue : b = 0x53#8 ↔ b.toNat = 0x53 := BitVec.toNat_inj.symm
  refine ⟨?_, ?_, ?_, ?_⟩
  · rw [classify_eq_digit_iff, isDigit_eq_true_iff]
  · rw [classify_eq_digit_iff, isDigit_eq_true_iff_mask]
  · rw [classify_eq_marker_iff, hmarker, hnoDigit, hvalue]
    omega
  · rw [classify_eq_other_iff, hmarker, hnoDigit, Ne, hvalue]
    omega

/-! ### Field values (30_encoding.md R55) -/

/-- Saturating after every digit gives what saturating once at the end gives (41_frame_parser.md R68). -/
theorem foldl_accumulate_min (c : Config) (d : List Byte) (v : Nat) :
    d.foldl (accumulate c) (min v c.fieldMax) =
      min (d.foldl (fun v b => v * 10 + digitValue b) v) c.fieldMax := by
  induction d generalizing v with
  | nil => rfl
  | cons b d ih =>
    have hstep : accumulate c (min v c.fieldMax) b = min (v * 10 + digitValue b) c.fieldMax := by
      simp only [accumulate]
      omega
    rw [List.foldl_cons, hstep, ih, List.foldl_cons]

theorem foldl_accumulate_zero (c : Config) (d : List Byte) :
    d.foldl (accumulate c) 0 = min (decValue d) c.fieldMax := by
  have h := foldl_accumulate_min c d 0
  rwa [Nat.zero_min] at h

/-! ### The frames of the grammar (30_encoding.md R53) -/

/-- A digit run that ends before a non-digit byte is maximal. -/
theorem noDigitFirst_cons {b : Byte} (hb : isDigit b = false) (s : List Byte) : NoDigitFirst (b :: s) := by
  rintro _ _ ⟨⟩
  exact hb

/-- A marker run ends where a digit run begins (00_scope.md R10). -/
theorem noMarkerFirst_of_digitRun (c : LegalConfig) {d : List Byte} (hne : d ≠ []) (hd : DigitRun d) (s : List Byte) :
    ∀ b t, d ++ s = b :: t → isMarker c.toConfig b = false := by
  obtain ⟨x, d, rfl⟩ := List.exists_cons_of_ne_nil hne
  rintro _ _ ⟨⟩
  refine Bool.eq_false_iff.mpr fun hm => ?_
  exact Bool.false_ne_true ((marker_not_digit c hm).symm.trans (hd x List.mem_cons_self))

/-- Parse answers a frame of the grammar with the saturated values of its two digit runs. -/
theorem parse_of_validFrame (c : LegalConfig) {markers field1 field2 trailer : List Byte} {sep : Byte}
    (h : ValidFrame c.toConfig markers field1 sep field2 trailer) :
    parse c.toConfig (markers ++ field1 ++ [sep] ++ field2 ++ trailer) =
      .ok (min (decValue field1) c.fieldMax) (min (decValue field2) c.fieldMax) := by
  calc parse c.toConfig (markers ++ field1 ++ [sep] ++ field2 ++ trailer)
    _ = parse c.toConfig (markers ++ (field1 ++ sep :: (field2 ++ trailer))) := by simp
    _ = parseFields c.toConfig (field1 ++ sep :: (field2 ++ trailer)) :=
      parse_markerRun h.markers_ne h.markers_run (noMarkerFirst_of_digitRun c h.field1_ne h.field1_run _)
    _ = parseLower c.toConfig (field1.foldl (accumulate c.toConfig) 0) (sep :: (field2 ++ trailer)) := by
      rw [parseFields_run h.field1_run (noDigitFirst_cons h.sep_noDigit _), if_neg h.field1_ne]
    _ = .ok (min (decValue field1) c.fieldMax) (min (decValue field2) c.fieldMax) := by
      rw [parseLower_run h.field2_run h.trailer_noDigit, if_neg h.field2_ne, foldl_accumulate_zero,
        foldl_accumulate_zero]

/-- A frame Parse accepts begins with a marker run, and its fields are parsed behind that run. -/
theorem exists_markerRun_of_parse_ok {c : Config} {bytes : List Byte} {u l : Nat} (h : parse c bytes = .ok u l) :
    ∃ markers rest, bytes = markers ++ rest ∧ markers ≠ [] ∧ MarkerRun c markers ∧ parseFields c rest = .ok u l := by
  obtain ⟨markers, rest, rfl, hrun, -, hend⟩ := exists_markerRun c bytes
  have hne : markers ≠ [] := by
    rintro rfl
    cases h.symm.trans (parse_noMarker hend)
  exact ⟨markers, rest, rfl, hne, hrun, (parse_markerRun hne hrun hend).symm.trans h⟩

/-- Fields that parse are a digit run, a separator, a digit run and a trailer. -/
theorem exists_fields_of_parseFields_ok {c : Config} {s : List Byte} {u l : Nat} (h : parseFields c s = .ok u l) :
    ∃ field1 sep field2 trailer, s = field1 ++ sep :: (field2 ++ trailer) ∧ field1 ≠ [] ∧ DigitRun field1 ∧
      isDigit sep = false ∧ field2 ≠ [] ∧ DigitRun field2 ∧ NoDigitFirst trailer := by
  obtain ⟨field1, rest, rfl, hrun1, hend1⟩ := exists_digitRun s
  rw [parseFields_run hrun1 hend1] at h
  split at h
  · cases h
  · rename_i hne1
    cases rest with
    | nil => cases h
    | cons sep s =>
      obtain ⟨field2, trailer, rfl, hrun2, hend2⟩ := exists_digitRun s
      rw [parseLower_run hrun2 hend2] at h
      split at h
      · cases h
      · rename_i hne2
        exact ⟨field1, sep, field2, trailer, rfl, hne1, hrun1, hend1 sep _ rfl, hne2, hrun2, hend2⟩

/-- A frame Parse accepts is a frame of the grammar. -/
theorem exists_validFrame_of_parse_ok {c : Config} {bytes : List Byte} {u l : Nat} (h : parse c bytes = .ok u l) :
    ∃ markers field1 sep field2 trailer, bytes = markers ++ field1 ++ [sep] ++ field2 ++ trailer ∧
      ValidFrame c markers field1 sep field2 trailer := by
  obtain ⟨markers, _, rfl, hneM, hrunM, hfields⟩ := exists_markerRun_of_parse_ok h
  obtain ⟨field1, sep, field2, trailer, rfl, hne1, hrun1, hsep, hne2, hrun2, hend⟩ :=
    exists_fields_of_parseFields_ok hfields
  exact ⟨markers, field1, sep, field2, trailer, by simp, hneM, hrunM, hne1, hrun1, hsep, hne2, hrun2, hend⟩

/-- Settles O16: an accepted frame is one of the grammar, and on those Parse is known. -/
theorem parseAcceptsExactlyTheGrammar : Obligations.ParseAcceptsExactlyTheGrammar := by
  intro c bytes u l
  constructor
  · intro h
    obtain ⟨markers, field1, sep, field2, trailer, rfl, hframe⟩ := exists_validFrame_of_parse_ok h
    cases h.symm.trans (parse_of_validFrame c hframe)
    exact ⟨markers, field1, sep, field2, trailer, rfl, hframe, rfl, rfl⟩
  · rintro ⟨markers, field1, sep, field2, trailer, rfl, hframe, rfl, rfl⟩
    exact parse_of_validFrame c hframe

/-! ### The least length of a frame (30_encoding.md R54) -/

/-- Marker run, both fields and the separator take at least one byte each. -/
theorem ValidFrame.four_le_length {c : Config} {markers field1 field2 trailer : List Byte} {sep : Byte}
    (h : ValidFrame c markers field1 sep field2 trailer) :
    4 ≤ (markers ++ field1 ++ [sep] ++ field2 ++ trailer).length := by
  have hmarkers := List.length_pos_of_ne_nil h.markers_ne
  have hfield1 := List.length_pos_of_ne_nil h.field1_ne
  have hfield2 := List.length_pos_of_ne_nil h.field2_ne
  simp only [List.length_append, List.length_singleton]
  omega

/-- R54's example, `S0,0`. -/
theorem validFrame_shortest (c : Config) : ValidFrame c [c.marker] [0x30#8] 0x2C#8 [0x30#8] [] where
  markers_ne := by simp
  markers_run := by simp [MarkerRun, isMarker]
  field1_ne := by simp
  field1_run := by decide
  sep_noDigit := by decide
  field2_ne := by simp
  field2_run := by decide
  trailer_noDigit := by rintro _ _ ⟨⟩

/-- Settles O21: the shortest frame of the grammar has four bytes, and its fields are zero. -/
theorem validFramesHaveAtLeastFourBytes : Obligations.ValidFramesHaveAtLeastFourBytes := by
  constructor
  · intro c bytes u l h
    obtain ⟨_, _, _, _, _, rfl, hframe⟩ := exists_validFrame_of_parse_ok h
    exact hframe.four_le_length
  · intro c
    have hvalue : min (decValue [0x30#8]) c.fieldMax = 0 := Nat.zero_min _
    simpa [hvalue] using parse_of_validFrame c (validFrame_shortest c.toConfig)

end Sys2Proof.Machine

/-! PROOF. The byte sink family (spec/40_byte_sink.md): the store case (R59), the full case and the frame it discards
(R60), the echo (R61). -/

namespace Sys2Proof.Machine

/-! ### The two cases of RXB (40_byte_sink.md R59, R60) -/

theorem exec_rxb_of_lt (b : Byte) {s : State} (h : s.count < s.cfg.bufCap) :
    exec (.rxb b) s = .next ((s.emitEcho b).appendByte b) := by
  rw [exec_rxb, State.sinkByte_of_lt (s.emitEcho b) b h]

theorem exec_rxb_of_not_lt (b : Byte) {s : State} (h : ¬ s.count < s.cfg.bufCap) :
    exec (.rxb b) s = .next { s.emitEcho b with ovf := true } := by
  rw [exec_rxb, State.sinkByte_of_not_lt (s.emitEcho b) b h]

/-- Settles O12: below capacity RXB is the echo, then the append at the write index. -/
theorem rxbStoresAtTheWriteIndex : Obligations.RxbStoresAtTheWriteIndex := by
  intro b s hlt
  refine ⟨_, exec_rxb_of_lt b hlt, (s.emitEcho b).cell_appendByte_same b, rfl, fun i hi => ?_, fun bytes h => ?_,
    rfl, rfl, rfl, rfl, rfl, rfl, rfl⟩
  · exact (s.emitEcho b).cell_appendByte_other b hi
  · exact State.frameBytes_appendByte b hlt ((s.frameBytes_emitEcho b).trans h)

/-! ### A frame that overflows (40_byte_sink.md R60) -/

/-- From an empty frame, the byte after the first BUF_CAP ones is the first to set `ovf`. -/
theorem State.receive_ovf_iff {s : State} (h : s.FrameEmpty) (bytes : List Byte) :
    (s.receive bytes).ovf = true ↔ s.cfg.bufCap + 1 ≤ bytes.length := by
  obtain ⟨hcount, hovf⟩ := h
  induction bytes using List.reverseRecOn with
  | nil => simp [hovf]
  | append_singleton bytes b ih =>
    simp only [State.receive_snoc, State.sinkByte_ovf, State.emitEcho_count, State.emitEcho_cfg, State.emitEcho_ovf,
      State.receive_cfg, State.receive_count hcount, List.length_append, List.length_singleton]
    split
    · rw [ih]
      omega
    · simp only [true_iff]
      omega

theorem execAll_sendTxns_receive (bytes : List Byte) (s : State) :
    execAll (sendTxns bytes) s = exec .rxend (s.receive bytes) := execAll_sendTxns bytes s

/-- A burst longer than BUF_CAP is discarded by the RXEND that ends it (60_exceptions.md R106). -/
theorem execAll_sendTxns_of_overflow {s : State} (h : s.FrameEmpty) {bytes : List Byte}
    (hlen : s.cfg.bufCap < bytes.length) :
    execAll (sendTxns bytes) s = .next ((s.receive bytes).discardFrame .frameOverflow) := by
  rw [execAll_sendTxns_receive, exec_rxend_of_ovf ((State.receive_ovf_iff h bytes).mpr hlen)]

/-- Settles O13: the full case of RXB, then the burst's `ovf`, then the discard. -/
theorem overflowingFrameIsDiscardedWhole : Obligations.OverflowingFrameIsDiscardedWhole := by
  refine ⟨fun b s hfull => exec_rxb_of_not_lt b (Nat.not_lt_of_le hfull.ge), fun bytes s hempty => ?_,
    fun bytes s hempty hlen => ?_⟩
  · exact ⟨s.receive bytes, execAll_receive bytes s, State.receive_ovf_iff hempty bytes⟩
  · exact ⟨_, execAll_sendTxns_of_overflow hempty hlen, by simp, ⟨rfl, rfl⟩, by simp,
      State.pwmLine_congr (by simp) (by simp)⟩

/-! ### The echo (40_byte_sink.md R61) -/

@[simp] theorem State.receive_echo (s : State) (bytes : List Byte) : (s.receive bytes).echo = s.echo ++ bytes := by
  induction bytes using List.reverseRecOn with
  | nil => simp
  | append_singleton bytes b ih => simp [ih]

/-- Settles O14: RXB's echo byte by byte over a burst, and transaction by transaction. -/
theorem echoIsExactlyTheBytesReceived : Obligations.EchoIsExactlyTheBytesReceived := by
  refine ⟨fun b s => ⟨_, exec_rxb b s, by simp⟩, fun bytes s => ⟨_, execAll_receive bytes s, by simp⟩,
    fun i s t h => ?_⟩
  cases i with
  | rxb b => cases h; simp
  | rxend => obtain ⟨hecho, -⟩ := rxend_frame h; simpa using hecho
  | read => obtain ⟨r, -, rfl⟩ := exec_read_cases h; simp
  | reset => cases h; simp

end Sys2Proof.Machine

/-! PROOF. The frame parser family (spec/41_frame_parser.md): the reasons of Parse (R66 to R71, R73), the saturation law
(R68), the round trip (R75), the trailer (R72). -/

namespace Sys2Proof.Machine

/-! ### The saturation law (41_frame_parser.md R68) -/

/-- `Digits` on a maximal digit run. -/
theorem digits_run (c : Config) {run rest : List Byte} (hrun : DigitRun run) (hend : NoDigitFirst rest) :
    digits c (run ++ rest) = (min (decValue run) c.fieldMax, rest) := by
  rw [digits, digitsFrom_run hrun hend, foldl_accumulate_zero]

/-- A bound at or above the window does not change what is clamped to it. -/
theorem clamp_min_eq_clamp (t : Nat) {lo hi bound : Nat} (hwindow : lo ≤ hi) (hbound : hi ≤ bound) :
    clamp (min t bound) lo hi = clamp t lo hi := by
  rcases Nat.le_total t bound with ht | ht
  · rw [Nat.min_eq_left ht]
  · rw [Nat.min_eq_right ht]
    unfold clamp
    split_ifs <;> omega

/-- Settles O18: saturating after every digit is saturating once, and FIELD_MAX bounds both windows (00_scope.md R10). -/
theorem digitRunsSaturateUnseen : Obligations.DigitRunsSaturateUnseen := by
  refine ⟨fun c run rest hrun hend => digits_run c hrun hend, fun c t => ?_⟩
  obtain ⟨-, -, ⟨hupper, hupperMax⟩, ⟨hlower, hlowerMax⟩, -⟩ := c.facts
  exact ⟨clamp_min_eq_clamp t hupper hupperMax, clamp_min_eq_clamp t hlower hlowerMax⟩

/-! ### The trailer (41_frame_parser.md R72) -/

theorem noDigitFirst_nil : NoDigitFirst [] := by
  rintro _ _ ⟨⟩

/-- What follows the second field may be any sequence that does not lengthen it. -/
theorem ValidFrame.withTrailer {c : Config} {markers field1 field2 trailer trailer' : List Byte} {sep : Byte}
    (h : ValidFrame c markers field1 sep field2 trailer) (hend : NoDigitFirst trailer') :
    ValidFrame c markers field1 sep field2 trailer' :=
  { h with trailer_noDigit := hend }

/-- Parse gives the same with any trailer as with none. -/
theorem parse_append_trailer (c : LegalConfig) {markers field1 field2 trailer trailer' : List Byte} {sep : Byte}
    (h : ValidFrame c.toConfig markers field1 sep field2 trailer) (hend : NoDigitFirst trailer') :
    parse c.toConfig (markers ++ field1 ++ [sep] ++ field2 ++ trailer') =
      parse c.toConfig (markers ++ field1 ++ [sep] ++ field2) := by
  have hnone := parse_of_validFrame c (h.withTrailer noDigitFirst_nil)
  rw [List.append_nil] at hnone
  rw [parse_of_validFrame c (h.withTrailer hend), hnone]

/-- Settles O20: a marker and a CR are no digits, so each of the three is a trailer. -/
theorem bytesAfterTheSecondFieldAreIgnored : Obligations.BytesAfterTheSecondFieldAreIgnored := by
  intro c markers field1 sep field2 trailer h
  have hmarker : isDigit c.marker = false := marker_not_digit c (beq_self_eq_true c.marker)
  have hcr : isDigit 0x0D#8 = false := by decide
  exact ⟨parse_append_trailer c h h.trailer_noDigit,
    fun second => parse_append_trailer c h (noDigitFirst_cons hmarker second),
    parse_append_trailer c h (noDigitFirst_cons hcr _)⟩

/-! ### Decimal spellings (41_frame_parser.md R75) -/

/-- The byte that spells a decimal digit (30_encoding.md R52). -/
theorem isDigit_ofNat {d : Nat} (hd : d < 10) : isDigit (BitVec.ofNat 8 (0x30 + d)) = true := by
  rw [isDigit_eq_true_iff, BitVec.toNat_ofNat]
  omega

theorem digitValue_ofNat {d : Nat} (hd : d < 10) : digitValue (BitVec.ofNat 8 (0x30 + d)) = d := by
  rw [digitValue, BitVec.toNat_ofNat]
  omega

theorem digitRun_decimalSpelling (zeros n : Nat) : DigitRun (decimalSpelling zeros n) := by
  intro b hb
  rcases List.mem_append.mp hb with hzero | hspelled
  · rw [List.eq_of_mem_replicate hzero]
    decide
  · obtain ⟨d, hd, rfl⟩ := List.mem_map.mp hspelled
    exact isDigit_ofNat (Nat.digits_lt_base (by decide) (List.mem_reverse.mp hd))

/-- Leading zeros add nothing to the value of what follows. -/
theorem decValue_zeros_append (zeros : Nat) (s : List Byte) :
    decValue (List.replicate zeros 0x30#8 ++ s) = decValue s := by
  induction zeros with
  | zero => rfl
  | succ zeros ih => exact ih

/-- The digits of a number, most significant first, have its value. -/
theorem decValue_map_digits (n : Nat) :
    decValue ((Nat.digits 10 n).reverse.map fun d => BitVec.ofNat 8 (0x30 + d)) = n := by
  unfold decValue
  rw [List.foldl_map, List.foldl_reverse]
  calc (Nat.digits 10 n).foldr (fun d v => v * 10 + digitValue (BitVec.ofNat 8 (0x30 + d))) 0
    _ = (Nat.digits 10 n).foldr (fun d v => d + 10 * v) 0 := by
      refine List.foldr_ext _ _ 0 fun d hd v => ?_
      rw [digitValue_ofNat (Nat.digits_lt_base (by decide) hd), Nat.mul_comm, Nat.add_comm]
    _ = Nat.ofDigits 10 (Nat.digits 10 n) := (Nat.ofDigits_eq_foldr 10 _).symm
    _ = n := Nat.ofDigits_digits 10 n

theorem decValue_decimalSpelling (zeros n : Nat) : decValue (decimalSpelling zeros n) = n :=
  (decValue_zeros_append zeros _).trans (decValue_map_digits n)

/-- The frame `S<u>,<l>` is one of the grammar. -/
theorem validFrame_decimalSpelling (c : Config) {u l zu zl : Nat} (hu : decimalSpelling zu u ≠ [])
    (hl : decimalSpelling zl l ≠ []) :
    ValidFrame c [c.marker] (decimalSpelling zu u) 0x2C#8 (decimalSpelling zl l) [] where
  markers_ne := List.cons_ne_nil _ _
  markers_run := by simp [MarkerRun, isMarker]
  field1_ne := hu
  field1_run := digitRun_decimalSpelling zu u
  sep_noDigit := by decide
  field2_ne := hl
  field2_run := digitRun_decimalSpelling zl l
  trailer_noDigit := noDigitFirst_nil

/-- Settles O19: the fields of the spelled frame have the values u and l, which FIELD_MAX does not cut. -/
theorem decimalSpellingsRoundTrip : Obligations.DecimalSpellingsRoundTrip := by
  intro c u l zu zl hu hl hneU hneL
  have h := parse_of_validFrame c (validFrame_decimalSpelling c.toConfig hneU hneL)
  rw [decValue_decimalSpelling, decValue_decimalSpelling, Nat.min_eq_left hu, Nat.min_eq_left hl] at h
  simpa using h

/-! ### The reason of a malformed frame (41_frame_parser.md R66, R69 to R71, R73) -/

theorem isMarker_eq_false_iff (c : Config) (b : Byte) : isMarker c b = false ↔ b ≠ c.marker :=
  beq_eq_false_iff_ne

/-- The five shapes a sequence of bytes can have for Parse, each with the result Parse owes it. -/
inductive ParseShape (c : Config) : List Byte → ParseResult → Prop
  | noMarker {bytes : List Byte} (hfirst : ∀ b t, bytes = b :: t → b ≠ c.marker) :
    ParseShape c bytes (.err .noMarker)
  | emptyField1 {markers rest : List Byte} (hne : markers ≠ []) (hmarkers : MarkerRun c markers)
      (hend : ∀ b t, rest = b :: t → b ≠ c.marker ∧ isDigit b = false) :
    ParseShape c (markers ++ rest) (.err .emptyField1)
  | noSeparator {markers field1 : List Byte} (hne : markers ≠ []) (hmarkers : MarkerRun c markers)
      (hne1 : field1 ≠ []) (hrun1 : DigitRun field1) :
    ParseShape c (markers ++ field1) (.err .noSeparator)
  | emptyField2 {markers field1 : List Byte} {sep : Byte} {rest : List Byte} (hne : markers ≠ [])
      (hmarkers : MarkerRun c markers) (hne1 : field1 ≠ []) (hrun1 : DigitRun field1) (hsep : isDigit sep = false)
      (hend : NoDigitFirst rest) :
    ParseShape c (markers ++ field1 ++ sep :: rest) (.err .emptyField2)
  | accepted {markers field1 : List Byte} {sep : Byte} {field2 trailer : List Byte}
      (hframe : ValidFrame c markers field1 sep field2 trailer) :
    ParseShape c (markers ++ field1 ++ [sep] ++ field2 ++ trailer)
      (.ok (min (decValue field1) c.fieldMax) (min (decValue field2) c.fieldMax))

/-- Behind a marker run, a first field that is not empty leaves the result to what follows it. -/
theorem parse_firstField (c : LegalConfig) {markers field1 rest : List Byte} (hne : markers ≠ [])
    (hmarkers : MarkerRun c.toConfig markers) (hne1 : field1 ≠ []) (hrun1 : DigitRun field1)
    (hend : NoDigitFirst rest) :
    parse c.toConfig (markers ++ (field1 ++ rest)) =
      parseLower c.toConfig (field1.foldl (accumulate c.toConfig) 0) rest := by
  rw [parse_markerRun hne hmarkers (noMarkerFirst_of_digitRun c hne1 hrun1 rest), parseFields_run hrun1 hend,
    if_neg hne1]

/-- Parse gives each shape its result. -/
theorem ParseShape.parse_eq {c : LegalConfig} {bytes : List Byte} {r : ParseResult}
    (h : ParseShape c.toConfig bytes r) : parse c.toConfig bytes = r := by
  cases h with
  | noMarker hfirst => exact parse_noMarker fun b t hb => (isMarker_eq_false_iff _ b).mpr (hfirst b t hb)
  | emptyField1 hne hmarkers hend =>
    rw [parse_markerRun hne hmarkers fun b t hb => (isMarker_eq_false_iff _ b).mpr (hend b t hb).1]
    exact parseFields_run (d := []) (List.forall_mem_nil _) fun b t hb => (hend b t hb).2
  | noSeparator hne hmarkers hne1 hrun1 =>
    have hfirst := parse_firstField c hne hmarkers hne1 hrun1 noDigitFirst_nil
    rwa [List.append_nil] at hfirst
  | emptyField2 hne hmarkers hne1 hrun1 hsep hend =>
    rw [List.append_assoc, parse_firstField c hne hmarkers hne1 hrun1 (noDigitFirst_cons hsep _)]
    exact parseLower_run (d := []) (List.forall_mem_nil _) hend _ _
  | accepted hframe => exact parse_of_validFrame c hframe

/-- Every sequence of bytes has one of the shapes. -/
theorem exists_parseShape (c : Config) (bytes : List Byte) : ∃ r, ParseShape c bytes r := by
  obtain ⟨markers, rest, rfl, hmarkers, -, hendM⟩ := exists_markerRun c bytes
  by_cases hne : markers = []
  · subst hne
    exact ⟨_, .noMarker fun b t hb => (isMarker_eq_false_iff c b).mp (hendM b t hb)⟩
  obtain ⟨field1, rest, rfl, hrun1, hend1⟩ := exists_digitRun rest
  by_cases hne1 : field1 = []
  · subst hne1
    exact ⟨_, .emptyField1 hne hmarkers fun b t hb => ⟨(isMarker_eq_false_iff c b).mp (hendM b t hb), hend1 b t hb⟩⟩
  cases rest with
  | nil =>
    rw [List.append_nil]
    exact ⟨_, .noSeparator hne hmarkers hne1 hrun1⟩
  | cons sep rest =>
    have hsep : isDigit sep = false := hend1 sep rest rfl
    obtain ⟨field2, trailer, rfl, hrun2, hend2⟩ := exists_digitRun rest
    rw [← List.append_assoc]
    by_cases hne2 : field2 = []
    · subst hne2
      exact ⟨_, .emptyField2 hne hmarkers hne1 hrun1 hsep hend2⟩
    · have haccepted := ParseShape.accepted ⟨hne, hmarkers, hne1, hrun1, hsep, hne2, hrun2, hend2⟩
      exact ⟨_, by simpa using haccepted⟩

/-- Parse's result says which shape the bytes have, since each has one and Parse answers by it. -/
theorem parse_eq_iff_parseShape (c : LegalConfig) (bytes : List Byte) (r : ParseResult) :
    parse c.toConfig bytes = r ↔ ParseShape c.toConfig bytes r := by
  refine ⟨fun h => ?_, ParseShape.parse_eq⟩
  obtain ⟨r', hshape⟩ := exists_parseShape c.toConfig bytes
  rwa [← h, hshape.parse_eq]

/-- Settles O17: the four conditions are the four shapes that are no frame. -/
theorem parseErrorsNameTheFirstFailingCheck : Obligations.ParseErrorsNameTheFirstFailingCheck := by
  intro c bytes
  simp only [parse_eq_iff_parseShape]
  refine ⟨⟨?_, .noMarker⟩, ⟨?_, ?_⟩, ⟨?_, ?_⟩, ⟨?_, ?_⟩⟩
  · exact fun | .noMarker hfirst => hfirst
  · exact fun | .emptyField1 hne hmarkers hend => ⟨_, _, rfl, hne, hmarkers, hend⟩
  · rintro ⟨markers, rest, rfl, hne, hmarkers, hend⟩
    exact .emptyField1 hne hmarkers hend
  · exact fun | .noSeparator hne hmarkers hne1 hrun1 => ⟨_, _, rfl, hne, hmarkers, hne1, hrun1⟩
  · rintro ⟨markers, field1, rfl, hne, hmarkers, hne1, hrun1⟩
    exact .noSeparator hne hmarkers hne1 hrun1
  · exact fun
      | .emptyField2 hne hmarkers hne1 hrun1 hsep hend => ⟨_, _, _, _, rfl, hne, hmarkers, hne1, hrun1, hsep, hend⟩
  · rintro ⟨markers, field1, sep, rest, rfl, hne, hmarkers, hne1, hrun1, hsep, hend⟩
    exact .emptyField2 hne hmarkers hne1 hrun1 hsep hend

end Sys2Proof.Machine

/-! PROOF. The angle clamper family (spec/42_angle_clamper.md): the clamp's cases (R77), and a valid burst committed end
to end (R81). -/

namespace Sys2Proof.Machine

/-! ### The clamp (42_angle_clamper.md R77) -/

theorem clamp_of_lt {v lo : Nat} (h : v < lo) (hi : Nat) : clamp v lo hi = lo := if_pos h

theorem clamp_of_gt {v lo hi : Nat} (hwindow : lo ≤ hi) (h : hi < v) : clamp v lo hi = hi := by
  rw [clamp, if_neg (by omega), if_pos h]

theorem clamp_of_mem_window {v lo hi : Nat} (hlo : lo ≤ v) (hhi : v ≤ hi) : clamp v lo hi = v := by
  rw [clamp, if_neg (by omega), if_neg (by omega)]

theorem clamp_eq_self_iff {v lo hi : Nat} (hwindow : lo ≤ hi) : clamp v lo hi = v ↔ lo ≤ v ∧ v ≤ hi := by
  constructor
  · intro h
    rw [← h]
    exact clamp_mem_window v hwindow
  · rintro ⟨hlo, hhi⟩
    exact clamp_of_mem_window hlo hhi

/-- Settles O22: the clamp's three cases, one lemma each; a fixed point lies in the window the clamp lands in. -/
theorem clampLandsInItsWindow : Obligations.ClampLandsInItsWindow := fun v _ hi hwindow =>
  ⟨fun h => clamp_of_lt h hi, clamp_of_gt hwindow, clamp_mem_window v hwindow, clamp_eq_self_iff hwindow⟩

/-- The form `pwmOfFields` writes the clamp in. -/
theorem clamp_eq_max_min (v : Nat) {lo hi : Nat} (hwindow : lo ≤ hi) : clamp v lo hi = max lo (min v hi) := by
  rcases Nat.lt_or_ge v lo with hlo | hlo
  · rw [clamp_of_lt hlo]
    omega
  rcases Nat.lt_or_ge hi v with hhi | hhi
  · rw [clamp_of_gt hwindow hhi]
    omega
  · rw [clamp_of_mem_window hlo hhi]
    omega

/-! ### The PwmState of a commit (43_pwm_mapper.md R85, R87) -/

/-- The commit of two clamped fields is the one written out from the spec. -/
theorem PwmState.committed_clamp_eq_pwmOfFields (c : LegalConfig) (u l : Nat) :
    PwmState.committed c.toConfig (clampUpper c.toConfig u) (clampLower c.toConfig l) =
      pwmOfFields c.toConfig u l := by
  obtain ⟨-, -, ⟨hupper, -⟩, ⟨hlower, -⟩, -⟩ := c.facts
  rw [clampUpper, clampLower, clamp_eq_max_min u hupper, clamp_eq_max_min l hlower]
  rfl

/-- Fields saturated at FIELD_MAX commit what their unbounded values would (41_frame_parser.md R68). -/
theorem pwmOfFields_min_fieldMax (c : LegalConfig) (u l : Nat) :
    pwmOfFields c.toConfig (min u c.fieldMax) (min l c.fieldMax) = pwmOfFields c.toConfig u l := by
  obtain ⟨-, -, ⟨hupper, hupperMax⟩, ⟨hlower, hlowerMax⟩, -⟩ := c.facts
  simp only [← PwmState.committed_clamp_eq_pwmOfFields, clampUpper, clampLower,
    clamp_min_eq_clamp u hupper hupperMax, clamp_min_eq_clamp l hlower hlowerMax]

/-- Once a frame is committed a line shows its channel's duty register. -/
theorem State.pwmLine_of_valid {s : State} (h : s.pwm.valid = true) (o : PwmOutput) :
    s.pwmLine o = s.pwm.dutyOf o.channel := if_pos h

/-! ### A valid burst, end to end (42_angle_clamper.md R81) -/

/-- A burst that fits leaves all its bytes as the frame's. -/
theorem State.receive_frameBytes_of_fits {s : State} (h : s.FrameEmpty) {bytes : List Byte}
    (hfits : bytes.length ≤ s.cfg.bufCap) : (s.receive bytes).frameBytes = .ok bytes := by
  rw [State.receive_frameBytes h.1, List.take_of_length_le hfits]

/-- A burst that fits and parses is committed by the RXEND that ends it (44_frame_end.md R90). -/
theorem execAll_sendTxns_of_parse_ok {s : State} (h : s.FrameEmpty) {bytes : List Byte} {u l : Nat}
    (hfits : bytes.length ≤ s.cfg.bufCap) (hparse : parse s.cfg.toConfig bytes = .ok u l) :
    execAll (sendTxns bytes) s = .next ((s.receive bytes).commitFrame u l) := by
  have hovf : (s.receive bytes).ovf = false := by
    rw [Bool.eq_false_iff, ne_eq, State.receive_ovf_iff h]
    omega
  rw [execAll_sendTxns_receive, exec_rxend_of_ok hovf (State.receive_frameBytes_of_fits h hfits)
    (by rwa [State.receive_cfg])]

/-- Settles O28: the frame is stored whole, parses to its saturated fields, and clamping does not see the saturation. -/
theorem validBurstCommitsItsClampedFields : Obligations.ValidBurstCommitsItsClampedFields := by
  intro s markers field1 sep field2 trailer hempty hframe hfits
  have hrun := execAll_sendTxns_of_parse_ok hempty hfits (parse_of_validFrame s.cfg hframe)
  refine ⟨_, hrun, by simp, ⟨rfl, rfl⟩, ?_, State.pwmLine_of_valid rfl .pwm1, State.pwmLine_of_valid rfl .pwm0,
    by simp, by simp, by simp, by simp⟩
  rw [State.commitFrame_pwm, State.receive_cfg, PwmState.committed_clamp_eq_pwmOfFields, pwmOfFields_min_fieldMax]

end Sys2Proof.Machine

/-! PROOF. The PWM mapper family (spec/43_pwm_mapper.md): the range of a duty (R84), who writes PwmState (R86), the
lines on commit (R87) and the worked example at the defaults (R89). -/

namespace Sys2Proof.Machine

/-! ### The range of a duty (43_pwm_mapper.md R84) -/

/-- A greater angle never has a lesser duty. -/
theorem duty_mono (c : Config) {a a' : Nat} (h : a ≤ a') : duty c a ≤ duty c a' :=
  Nat.div_le_div_right (Nat.mul_le_mul_right (periodTicks c) h)

/-- Settles O23: both windows end below DUTY_DIV, so a duty is less than the period, which the register holds
(00_scope.md R10). -/
theorem dutyIsBelowThePeriodAndMonotone : Obligations.DutyIsBelowThePeriodAndMonotone := by
  refine fun c => ⟨fun a ha => ?_, fun _ _ => duty_mono c.toConfig⟩
  obtain ⟨-, -, -, -, hupper, hlower, -, -, hwidth⟩ := c.facts
  have hdiv : a < c.dutyDiv := by omega
  have hperiod : duty c.toConfig a < periodTicks c.toConfig := duty_lt_periodTicks hdiv (periodTicks_pos c)
  exact ⟨hperiod, hperiod.trans hwidth⟩

/-! ### The commit and the lines (43_pwm_mapper.md R85 to R87) -/

/-- What a commit writes to PwmState, in the form the spec's rules give it. -/
theorem State.commitFrame_pwm_eq_pwmOfFields (s : State) (u l : Nat) :
    (s.commitFrame u l).pwm = pwmOfFields s.cfg.toConfig u l := by
  rw [State.commitFrame_pwm, PwmState.committed_clamp_eq_pwmOfFields]

/-- An RXEND whose outcome is Committed parsed the frame in the buffer and committed its two fields. -/
theorem exists_commitFrame_of_committed {s t : State} (h : exec .rxend s = .next t)
    (hcommitted : t.outcomes = s.outcomes ++ [.committed]) :
    ∃ bytes u l, s.frameBytes = .ok bytes ∧ parse s.cfg.toConfig bytes = .ok u l ∧ t = s.commitFrame u l := by
  rcases exec_rxend_cases h with ⟨-, rfl⟩ | ⟨-, _, _, -, -, rfl⟩ | ⟨-, bytes, u, l, hframe, hparse, rfl⟩
  · simp at hcommitted
  · simp at hcommitted
  · exact ⟨bytes, u, l, hframe, hparse, rfl⟩

/-- Settles O32: a commit sets `valid`, so each line shows the duty register of its channel. -/
theorem commitDrivesBothPwmLines : Obligations.CommitDrivesBothPwmLines := by
  intro s t h hcommitted
  obtain ⟨bytes, u, l, hframe, hparse, rfl⟩ := exists_commitFrame_of_committed h hcommitted
  have hpwm := s.commitFrame_pwm_eq_pwmOfFields u l
  have hline := State.pwmLine_of_valid (s := s.commitFrame u l) rfl
  rw [hpwm] at hline
  exact ⟨bytes, u, l, hframe, hparse, hpwm, hline .pwm1, hline .pwm0⟩

/-- A transaction that is neither a Committed RXEND nor RESET keeps PwmState. -/
theorem exec_commits_or_resets_or_keeps_pwm {i : Instr} {s t : State} (h : exec i s = .next t) :
    (i = .rxend ∧ t.outcomes = s.outcomes ++ [.committed]) ∨ i = .reset ∨ t.pwm = s.pwm := by
  cases i with
  | rxb b => cases h; exact .inr (.inr (by simp))
  | rxend =>
    obtain ⟨-, -, -, hkeeps⟩ := rxend_frame h
    by_cases hcommitted : t.outcomes = s.outcomes ++ [.committed]
    · exact .inl ⟨rfl, hcommitted⟩
    · exact .inr (.inr (hkeeps hcommitted))
  | read => obtain ⟨_, -, rfl⟩ := exec_read_cases h; exact .inr (.inr rfl)
  | reset => exact .inr (.inl rfl)

/-- Settles O39: where PwmState is kept the lines are too, since they are a view of it and of the configuration. -/
theorem onlyCommitAndResetWritePwmState : Obligations.OnlyCommitAndResetWritePwmState := by
  intro i s t h hchanged
  rcases exec_commits_or_resets_or_keeps_pwm h with hcommit | hreset | hpwm
  · exact .inl hcommit
  · exact .inr hreset
  · obtain ⟨hcfg, -⟩ := exec_keeps_cfg_and_input h
    rcases hchanged with hne | ⟨line, hne⟩
    · exact absurd hpwm hne
    · exact absurd (State.pwmLine_congr hpwm hcfg line) hne

/-! ### The worked example (43_pwm_mapper.md R89) -/

/-- The bytes of `S083,083` parse to 83 and 83 at the defaults. -/
theorem parse_default_S083_083 (clk w iu il : Nat) :
    parse (defaultConfig clk w iu il) [0x53#8, 0x30#8, 0x38#8, 0x33#8, 0x2C#8, 0x30#8, 0x38#8, 0x33#8] = .ok 83 83 :=
  rfl

/-- 83 lies in both default windows, so both channels commit it and the duty of R83. -/
theorem pwmOfFields_default_83_83 (clk w iu il : Nat) :
    pwmOfFields (defaultConfig clk w iu il) 83 83 =
      { valid := true, angUpper := some 83, angLower := some 83,
        dutyUpper := some (83 * (clk / 55 - 1) / 1000), dutyLower := some (83 * (clk / 55 - 1) / 1000) } :=
  rfl

/-- Settles O29: the frame fits the default buffer and parses, so its RXEND commits it. -/
theorem defaultFrameS083Commits83 : Obligations.DefaultFrameS083Commits83 := by
  intro clk w iu il s hcfg hempty
  have hcap : s.cfg.bufCap = 50 := by rw [hcfg]; rfl
  have hparse := parse_default_S083_083 clk w iu il
  rw [← hcfg] at hparse
  have hrun := execAll_sendTxns_of_parse_ok hempty (by rw [hcap]; decide) hparse
  refine ⟨_, hrun, by simp, ?_⟩
  rw [State.commitFrame_pwm_eq_pwmOfFields, State.receive_cfg, hcfg, pwmOfFields_default_83_83]

end Sys2Proof.Machine

/-! PROOF. The frame end family (spec/44_frame_end.md): the whole of RXEND (R90), the empty frame (R92), the same frame
twice (R96). -/

namespace Sys2Proof.Machine

/-! ### What RXEND leaves, written out (44_frame_end.md R90) -/

/-- A discarded frame: the frame state cleared and the outcome recorded (60_exceptions.md R104). -/
theorem State.discardFrame_eq (s : State) (o : FrameOutcome) :
    s.discardFrame o = { s with count := 0, ovf := false, outcomes := s.outcomes ++ [o] } := rfl

/-- A committed frame: as a discarded one, and PwmState is what the spec gives for the fields. -/
theorem State.commitFrame_eq (s : State) (u l : Nat) :
    s.commitFrame u l = { s with count := 0, ovf := false, outcomes := s.outcomes ++ [.committed],
                                 pwm := pwmOfFields s.cfg.toConfig u l } := by
  rw [← PwmState.committed_clamp_eq_pwmOfFields]
  rfl

/-- Settles O24: one law of RXEND for each of its three branches; a readable frame is the bytes its cells hold. -/
theorem rxendRunsTheWholePipeline : Obligations.RxendRunsTheWholePipeline := by
  refine ⟨decode_encode .rxend, fun s hovf => exec_rxend_of_ovf hovf, fun s hovf hreadable => ?_⟩
  obtain ⟨bytes, hframe⟩ := State.frameBytes_of_readable hreadable
  obtain ⟨hlength, -, hcells⟩ := State.frameBytes_eq_ok hframe
  refine ⟨bytes, hlength, hcells, fun r hparse => ?_, fun u l hparse => ?_⟩
  · rw [exec_rxend_of_err hovf hframe hparse, State.discardFrame_eq]
  · rw [exec_rxend_of_ok hovf hframe hparse, State.commitFrame_eq]

/-! ### The empty frame (44_frame_end.md R92) -/

/-- Clearing an empty frame changes nothing. -/
theorem State.clearFrame_of_frameEmpty {s : State} (h : s.FrameEmpty) : s.clearFrame = s := by
  obtain ⟨hcount, hovf⟩ := h
  rw [State.clearFrame, ovfCleared, ← hcount, ← hovf]

/-- Settles O25: the empty frame has no marker, and there is nothing to clear. -/
theorem emptyFrameIsMalformed : Obligations.EmptyFrameIsMalformed := by
  intro s hcount hovf
  rw [exec_rxend_of_err hovf (State.frameBytes_of_empty hcount) rfl, State.discardFrame,
    State.clearFrame_of_frameEmpty ⟨hcount, hovf⟩, State.finish]

/-! ### The same frame twice (44_frame_end.md R96) -/

/-- A burst that fits and parses, sent from an empty frame, leaves an empty frame again, the outcome Committed, and in
PwmState what its two fields alone determine. -/
theorem exists_committed_of_parse_ok {s : State} (h : s.FrameEmpty) {bytes : List Byte} {u l : Nat}
    (hfits : bytes.length ≤ s.cfg.bufCap) (hparse : parse s.cfg.toConfig bytes = .ok u l) :
    ∃ t, execAll (sendTxns bytes) s = .next t ∧ t.FrameEmpty ∧ t.cfg = s.cfg ∧
      t.outcomes = s.outcomes ++ [.committed] ∧ t.pwm = pwmOfFields s.cfg.toConfig u l := by
  refine ⟨_, execAll_sendTxns_of_parse_ok h hfits hparse, ⟨rfl, rfl⟩, by simp, by simp, ?_⟩
  rw [State.commitFrame_pwm_eq_pwmOfFields, State.receive_cfg]

/-- Settles O30: the first burst leaves an empty frame and the same configuration, so the second does what the first
did, and both leave the PwmState of the same two fields. -/
theorem sameFrameTwiceSamePwmState : Obligations.SameFrameTwiceSamePwmState := by
  intro bytes u l s hempty hfits hparse
  obtain ⟨t₁, hrun₁, hempty₁, hcfg₁, hout₁, hpwm₁⟩ := exists_committed_of_parse_ok hempty hfits hparse
  rw [← hcfg₁] at hfits hparse hpwm₁
  obtain ⟨t₂, hrun₂, -, hcfg₂, hout₂, hpwm₂⟩ := exists_committed_of_parse_ok hempty₁ hfits hparse
  have hpwm : t₂.pwm = t₁.pwm := hpwm₂.trans hpwm₁.symm
  exact ⟨t₁, t₂, hrun₁, hrun₂, hout₁, by simp [hout₂, hout₁], by rw [hpwm₁]; rfl, hpwm,
    State.pwmLine_congr hpwm hcfg₂⟩

end Sys2Proof.Machine

/-! PROOF. The snapshot family (spec/45_snapshot_read.md): what READ answers (R97), the one commit behind its four values
(R98), and what the host cannot write (R99). -/

namespace Sys2Proof.Machine

/-! ### READ and its answer (45_snapshot_read.md R97) -/

/-- Settles O33: one law of READ's answer for each value of `valid`. -/
theorem readAnswersTheSnapshot : Obligations.ReadAnswersTheSnapshot :=
  ⟨decode_encode .read,
    fun _ hvalid => exec_read_of_answer (PwmState.answer_of_not_valid hvalid),
    fun _ _ _ _ _ hvalid hau hal hdu hdl => exec_read_of_answer (PwmState.answer_of_valid hvalid hau hal hdu hdl)⟩

/-! ### The host writes no element (45_snapshot_read.md R99) -/

/-- READ is the one transaction the host issues (60_exceptions.md R112). -/
theorem eq_read_of_issuer_eq_host {i : Instr} (h : issuer i = .host) : i = .read := by
  cases i with
  | read => rfl
  | rxb b => cases h
  | rxend => cases h
  | reset => cases h

/-- Settles O38: the host issues READ only, and READ only adds its response. -/
theorem hostTransactionsWriteNoElement : Obligations.HostTransactionsWriteNoElement := by
  intro i s t hhost h
  obtain rfl := eq_read_of_issuer_eq_host hhost
  obtain ⟨r, -, rfl⟩ := exec_read_cases h
  exact ⟨rfl, fun _ => rfl, rfl, rfl, rfl⟩

/-! ### The commit behind a snapshot (45_snapshot_read.md R98) -/

/-- A run without a RESET and without a Committed outcome keeps PwmState (43_pwm_mapper.md R86). -/
theorem execAll_keeps_pwm {is : List Instr} {s t : State} {later : List FrameOutcome} (h : execAll is s = .next t)
    (hreset : .reset ∉ is) (hlater : t.outcomes = s.outcomes ++ later) (hcommitted : .committed ∉ later) :
    t.pwm = s.pwm := by
  induction is generalizing s later with
  | nil => cases h; rfl
  | cons i is ih =>
    obtain ⟨m, hfirst, hrest⟩ := execAll_cons_eq_next h
    obtain ⟨os, hos⟩ := exec_outcomes hfirst
    obtain ⟨os', hos'⟩ := execAll_outcomes hrest
    obtain rfl : later = os ++ os' := by simpa [hos', hos] using hlater.symm
    obtain ⟨hnot, hnot'⟩ := not_or.mp (mt List.mem_append.mpr hcommitted)
    obtain ⟨hi, his⟩ := not_or.mp (mt List.mem_cons.mpr hreset)
    have hpwm : m.pwm = s.pwm := by
      rcases exec_commits_or_resets_or_keeps_pwm hfirst with ⟨-, hcommit⟩ | rfl | hkeeps
      · obtain rfl : os = [.committed] := by simpa [hos] using hcommit
        exact absurd (List.mem_singleton_self _) hnot
      · exact absurd rfl hi
      · exact hkeeps
    exact (ih hrest his hos' hnot').trans hpwm

/-- READ answers the four values that a commit of the fields `u` and `l` wrote. -/
theorem exec_read_of_pwmOfFields {s : State} {c : Config} {u l : Nat} (h : s.pwm = pwmOfFields c u l) :
    ∃ t au al du dl, exec .read s = .next t ∧ t.responses = s.responses ++ [.snapshot au al du dl] ∧
      pwmOfFields c u l = ⟨true, some au, some al, some du, some dl⟩ := by
  have hanswer := PwmState.answer_of_valid (p := pwmOfFields c u l) rfl rfl rfl rfl rfl
  rw [← h] at hanswer
  exact ⟨_, _, _, _, _, exec_read_of_answer hanswer, rfl, rfl⟩

/-- Settles O34: where the invariant holds, READ answers the registers it speaks of. A commit leaves in PwmState what its
two fields determine, the run after it keeps PwmState, and READ answers from PwmState. -/
theorem snapshotComesFromOneCommit : Obligations.SnapshotComesFromOneCommit := by
  constructor
  · intro s h
    cases hvalid : s.pwm.valid with
    | false => exact ⟨_, _, exec_read_of_answer (PwmState.answer_of_not_valid hvalid), rfl, fun _ => rfl, nofun⟩
    | true =>
      obtain ⟨au, al, hau, hu, hu', hal, hl, hl', hdu, hdl⟩ := h.committed hvalid
      have hread := exec_read_of_answer (PwmState.answer_of_valid hvalid hau hal hdu hdl)
      exact ⟨_, _, hread, rfl, nofun, fun _ => ⟨au, al, hau, hal, hdu, hdl, rfl, hu, hu', hl, hl'⟩⟩
  · intro s s₁ s₂ bytes u l is later hovf hframe hparse hcommit hrun hreset hlater hnone
    rw [exec_rxend_of_ok hovf hframe hparse] at hcommit
    cases hcommit
    have hkept : s₂.pwm = (s.commitFrame u l).pwm := execAll_keeps_pwm hrun hreset hlater hnone
    exact exec_read_of_pwmOfFields (hkept.trans (s.commitFrame_pwm_eq_pwmOfFields u l))

end Sys2Proof.Machine

/-! PROOF. The exceptions family (spec/60_exceptions.md): the one outcome of an RXEND (R100), an error that changes
nothing but the frame state (R104), and a discarded frame as if its bytes never arrived (R107). -/

namespace Sys2Proof.Machine

/-! ### The one outcome of an RXEND (60_exceptions.md R100) -/

/-- An RXEND that completes adds one outcome; unless that is Committed, it discarded the frame (60_exceptions.md
R104). -/
theorem exists_outcome_of_rxend {s t : State} (h : exec .rxend s = .next t) :
    ∃ o, t.outcomes = s.outcomes ++ [o] ∧ (o ≠ .committed → t = s.discardFrame o) := by
  rcases exec_rxend_cases h with ⟨-, rfl⟩ | ⟨-, _, r, -, -, rfl⟩ | ⟨-, _, _, _, -, -, rfl⟩
  · exact ⟨.frameOverflow, rfl, fun _ => rfl⟩
  · exact ⟨.malformedFrame r, rfl, fun _ => rfl⟩
  · exact ⟨.committed, rfl, fun hne => absurd rfl hne⟩

/-- RXEND completes wherever it can read its frame: nothing else makes it fault (10_state.md R32). -/
theorem exists_next_of_frameBytes {s : State} {bytes : List Byte} (h : s.frameBytes = .ok bytes) :
    ∃ t, exec .rxend s = .next t := by
  cases he : exec .rxend s with
  | next t => exact ⟨t, rfl⟩
  | refused r => exact absurd he (exec_ne_refused .rxend s r)
  | fault f =>
    rcases exec_eq_fault he with ⟨-, -, hunread⟩ | ⟨hread, -⟩
    · cases h.symm.trans hunread
    · cases hread

/-- Settles O41: RXB and RESET have one law each, READ answers where the invariant of PwmState holds, and RXEND reads
a readable frame. -/
theorem exactlyOneOutcomePerRxend : Obligations.ExactlyOneOutcomePerRxend := by
  refine ⟨fun b s => ⟨_, exec_rxb b s, by simp⟩, fun s => ⟨_, exec_reset s, rfl⟩, fun s hinv => ?_,
    fun s hreadable => ?_⟩
  · obtain ⟨r, hanswer⟩ := hinv.exists_answer
    exact ⟨_, exec_read_of_answer hanswer, rfl⟩
  · obtain ⟨bytes, hframe⟩ := State.frameBytes_of_readable hreadable
    obtain ⟨t, hrun⟩ := exists_next_of_frameBytes hframe
    obtain ⟨o, hout, -⟩ := exists_outcome_of_rxend hrun
    exact ⟨t, o, hrun, hout⟩

/-! ### An error changes nothing but the frame state (60_exceptions.md R104, R107) -/

/-- From an empty frame any burst ended by RXEND completes: the RXEND reads the bytes the burst stored. -/
theorem exists_next_of_sendTxns {s : State} (h : s.FrameEmpty) (bytes : List Byte) :
    ∃ t, execAll (sendTxns bytes) s = .next t := by
  rw [execAll_sendTxns_receive]
  exact exists_next_of_frameBytes (State.receive_frameBytes h.1 bytes)

/-- Settles O26: an RXEND that is not Committed is a discard, which leaves an empty frame for the next burst. -/
theorem failedFrameKeepsLastGoodValues : Obligations.FailedFrameKeepsLastGoodValues := by
  intro s t h
  obtain ⟨o, hout, hdiscard⟩ := exists_outcome_of_rxend h
  obtain ⟨hecho, -⟩ := rxend_frame h
  have hempty : t.FrameEmpty := ⟨count_of_rxend h, ovf_of_rxend h⟩
  refine ⟨o, hout, hempty, hecho, fun hne => ?_⟩
  obtain rfl := hdiscard hne
  exact ⟨rfl, fun _ => rfl, fun _ => rfl, rfl, rfl, rfl, exists_next_of_sendTxns hempty⟩

/-- A burst from an empty frame, discarded, leaves of itself its echo, its outcome and cells of no frame. -/
theorem sameButStaleCells_receive_discardFrame {s : State} (h : s.FrameEmpty) (bytes : List Byte) (o : FrameOutcome) :
    SameButStaleCells ((s.receive bytes).discardFrame o)
      { s with echo := s.echo ++ bytes, outcomes := s.outcomes ++ [o] } where
  cfg := by simp
  count := h.1.symm
  ovf := h.2.symm
  cells := fun _ hi => absurd hi (Nat.not_lt_zero _)
  pwm := by simp
  echo := by simp
  outcomes := by simp
  responses := by simp
  input := by simp

/-- Settles O27: the burst completes, and where its RXEND is not Committed it is a discard of what the burst stored. -/
theorem discardedBurstLeavesOnlyItsEcho : Obligations.DiscardedBurstLeavesOnlyItsEcho := by
  intro bytes s hempty
  obtain ⟨t, hrun⟩ := exists_next_of_sendTxns hempty bytes
  have hrxend : exec .rxend (s.receive bytes) = .next t := (execAll_sendTxns_receive bytes s).symm.trans hrun
  obtain ⟨o, hout, hdiscard⟩ := exists_outcome_of_rxend hrxend
  refine ⟨t, o, hrun, by rw [hout, State.receive_outcomes], fun hne => ?_⟩
  rw [hdiscard hne]
  exact sameButStaleCells_receive_discardFrame hempty bytes o

end Sys2Proof.Machine

/-! PROOF. The transaction word in both directions (spec/30_encoding.md R48, R49), the step on it (R50, R117), and the
reset and hazards family (spec/70_reset_and_hazards.md): RESET (R118), a frame cut in two (R123). -/

namespace Sys2Proof.Machine

/-! ### The transaction word (30_encoding.md R48, R49) -/

/-- A word is `{kind, data}` (30_encoding.md R48). -/
theorem kind_append_data (w : TxnWord) : TxnWord.kind w ++ TxnWord.data w = w := by
  have hjoin : w.extractLsb' 8 2 ++ w.extractLsb' 0 8 = w.extractLsb' 0 10 :=
    BitVec.extractLsb'_append_extractLsb'_eq_extractLsb' rfl
  exact hjoin.trans BitVec.extractLsb'_eq_self

/-- The kind left when the other three are excluded. -/
theorem kind_eq_reset {k : BitVec 2} (hrxb : k ≠ 0b00#2) (hrxend : k ≠ 0b01#2) (hread : k ≠ 0b10#2) :
    k = 0b11#2 := by
  revert k
  decide

/-- An operation the decoder reads has the kind and the data of the word it was read from (30_encoding.md R49). -/
theorem encode_eq_kind_append_data {w : TxnWord} {i : Instr} (h : decode w = .ok i) :
    encode i = TxnWord.kind w ++ TxnWord.data w := by
  unfold decode at h
  split_ifs at h with hrxb hdata hrxend hread <;> cases h
  · rw [hrxb, encode]
  · rw [hrxend, not_not.mp hdata, encode]
  · rw [hread, not_not.mp hdata, encode]
  · rw [kind_eq_reset hrxb hrxend hread, not_not.mp hdata, encode]

theorem encode_of_decode {w : TxnWord} {i : Instr} (h : decode w = .ok i) : encode i = w :=
  (encode_eq_kind_append_data h).trans (kind_append_data w)

/-- Every word the encoder writes lies in its row of the opcode map (30_encoding.md R49). -/
theorem encode_and_maskBits (i : Instr) : encode i &&& i.maskBits = i.matchBits := by
  cases i with
  | rxb b => exact Laws.TableRow.rxb b
  | rxend => exact Laws.TableRow.rxend
  | read => exact Laws.TableRow.read
  | reset => exact Laws.TableRow.reset

/-- Settles O2: the decoder reads every transaction back from its word; a word that decodes is the word of the operation
read from it, so it carries that operation's row. -/
theorem decodeInvertsEncode : Obligations.DecodeInvertsEncode := by
  refine ⟨fun i _ => decode_encode i, fun w i h => ⟨encode_of_decode h, ?_⟩⟩
  rw [← encode_of_decode h]
  exact encode_and_maskBits i

/-- Settles O1: six of the words are those of an operation, the other four are reserved. -/
theorem wordsOfTheOpcodeMapDecode : Obligations.WordsOfTheOpcodeMapDecode :=
  ⟨decode_encode (.rxb 0x53#8), decode_encode (.rxb 0x00#8), decode_encode (.rxb 0xFF#8), decode_encode .rxend,
    decode_encode .read, decode_encode .reset, decode_eq_error (by decide) (by decide),
    decode_eq_error (by decide) (by decide), decode_eq_error (by decide) (by decide),
    decode_eq_error (by decide) (by decide)⟩

/-! ### A step (30_encoding.md R50, 60_exceptions.md R117) -/

theorem State.takeWord_of_input {s : State} {w : TxnWord} {rest : List TxnWord} (h : s.input = w :: rest) :
    s.takeWord = { s with input := rest } := by
  rw [State.takeWord, h, List.tail_cons]

/-- Settles O5: one law of `step` for each thing the queue can hold at its front. -/
theorem stepRunsTheDecodedTransaction : Obligations.StepRunsTheDecodedTransaction := by
  refine ⟨fun s w rest i hinput hdecode _ => ?_, fun s w rest e => step_of_decode_error, fun s => step_of_idle⟩
  rw [step_of_decode_ok hinput hdecode, State.takeWord_of_input hinput]

/-! ### RESET (70_reset_and_hazards.md R118) -/

/-- Until a commit a line shows what external initialization left on it (10_state.md R25). -/
theorem State.pwmLine_of_not_valid {s : State} (h : s.pwm.valid = false) (o : PwmOutput) :
    s.pwmLine o = some (initPwm s.cfg.toConfig o.channel) := by
  simp [State.pwmLine, State.channelLine, h]

/-- Settles O10: RESET's one next state, field by field; it is not valid, so the lines and READ show no commit. -/
theorem resetTransactionClearsEveryElement : Obligations.ResetTransactionClearsEveryElement := by
  refine ⟨decode_encode .reset, fun s => ?_, exec_reset State.reset⟩
  have hvalid : s.clearAll.pwm.valid = false := rfl
  exact ⟨_, exec_reset s, rfl, rfl, hvalid, rfl, rfl, rfl, rfl, s.cell_clearAll, rfl,
    State.pwmLine_of_not_valid hvalid .pwm1, State.pwmLine_of_not_valid hvalid .pwm0,
    _, exec_read_of_answer (PwmState.answer_of_not_valid hvalid), rfl⟩

/-! ### A frame cut inside its second field (70_reset_and_hazards.md R123) -/

/-- A run whose first part answers a next state goes on from there (20_memory.md R40). -/
theorem execAll_append_of_next {is : List Instr} {s t : State} (h : execAll is s = .next t) (js : List Instr) :
    execAll (is ++ js) s = execAll js t := by
  rw [execAll_append, h]

/-- A burst that fits does not set `ovf` (40_byte_sink.md R60). -/
theorem State.receive_ovf_of_fits {s : State} (h : s.FrameEmpty) {bytes : List Byte}
    (hfits : bytes.length ≤ s.cfg.bufCap) : (s.receive bytes).ovf = false :=
  eq_false_of_ne_true fun hovf => Nat.not_lt_of_le hfits ((State.receive_ovf_iff h bytes).mp hovf)

/-- A burst that fits and does not parse is discarded by the RXEND that ends it (60_exceptions.md R102). -/
theorem execAll_sendTxns_of_parse_err {s : State} (h : s.FrameEmpty) {bytes : List Byte} {r : MalformedReason}
    (hfits : bytes.length ≤ s.cfg.bufCap) (hparse : parse s.cfg.toConfig bytes = .err r) :
    execAll (sendTxns bytes) s = .next ((s.receive bytes).discardFrame (.malformedFrame r)) := by
  rw [execAll_sendTxns_receive, exec_rxend_of_err (State.receive_ovf_of_fits h hfits)
    (State.receive_frameBytes_of_fits h hfits) (by rwa [State.receive_cfg])]

/-- A digit run alone is no frame: its first byte is no marker (41_frame_parser.md R66, 00_scope.md R10). -/
theorem parse_digitRun (c : LegalConfig) {d : List Byte} (hne : d ≠ []) (hd : DigitRun d) :
    parse c.toConfig d = .err .noMarker := by
  have hfirst := noMarkerFirst_of_digitRun c hne hd []
  rw [List.append_nil] at hfirst
  exact parse_noMarker hfirst

/-- Settles O31: the first part is a frame of the grammar with a shorter second field, and is committed; the rest is a
digit run, and its discard keeps what was committed. -/
theorem frameSplitInItsSecondFieldCommitsTheFirstPart :
    Obligations.FrameSplitInItsSecondFieldCommitsTheFirstPart := by
  intro s markers field1 sep part1 part2 hempty hframe hne hdigits hfits
  rw [List.length_append] at hfits
  have hparse₁ := parse_of_validFrame s.cfg hframe
  rw [List.append_nil] at hparse₁
  obtain ⟨t, hrun₁, hempty', hcfg, hout, hpwm⟩ := exists_committed_of_parse_ok hempty (by omega) hparse₁
  have hrun₂ := execAll_sendTxns_of_parse_err hempty' (by rw [hcfg]; omega) (parse_digitRun t.cfg hne hdigits)
  refine ⟨_, (execAll_append_of_next hrun₁ _).trans hrun₂, by simp [hout], ?_⟩
  rw [State.discardFrame_pwm, State.receive_pwm, hpwm, pwmOfFields_min_fieldMax]

end Sys2Proof.Machine
